-- ==== Sys2Proof/Word.lean ====
section
/-! DEFINITION. The two data widths of the block: a byte is 8 bits and a word is 32 bits
(spec/00_scope.md R11, R14). All values are unsigned; there is no signed arithmetic. -/

namespace Sys2Proof

/-- A 32-bit register value or command word (R11, R12). -/
abbrev Word := BitVec 32

/-- "Byte: an 8-bit unsigned value, 0–255" (R14). -/
abbrev Byte := BitVec 8

end Sys2Proof
end

