-- ==== Sys2Proof/Syntax.lean ====
section
/-! DEFINITION. The 21 commands of Table 30-1 (spec/30_encoding.md R115), one constructor for each row
of spec/opcode_table.json, in the table's order, with the fields the command word carries; the
three command formats (R110 to R113); and the five command errors (spec/60_exceptions.md R281). -/

namespace Sys2Proof

/-- One command of the block. The data operands are not in the word: they are registers, read
implicitly (R114). `rcon` and `addrk` carry the 4-bit field R, `md5final` the 6-bit field L. -/
inductive Instr where
  | nop
  | gfmul
  | sbox
  | invsbox
  | sboxgen
  | rotword
  | subword
  | rcon (r : BitVec 4)
  | keyexp
  | addrk (r : BitVec 4)
  | subbytes
  | invsubbytes
  | shiftrows
  | invshiftrows
  | mixcolumns
  | invmixcolumns
  | encrypt
  | decrypt
  | md5init
  | md5block
  | md5final (l : BitVec 6)
  deriving DecidableEq, Repr

/-- The three command word formats: no argument, a round or table index, a byte count (R110). -/
inductive Format where
  | n
  | r
  | l
  deriving DecidableEq, Repr

/-- The command errors, in check order (R281, R142). Recording one is an ordinary state change, not a
fault of the model (spec/60_exceptions.md R289). -/
inductive CmdError where
  /-- A write to CMD or to an input register while BUSY = 1. -/
  | ebusy
  /-- Bits 7:0 of the command word are a reserved opcode. -/
  | eopcode
  /-- A bit outside the format's fields is set. -/
  | ersvd
  /-- The field R is outside its opcode's range. -/
  | erange
  /-- ADDRK issued while RKV = 0. -/
  | enork
  deriving DecidableEq, Repr

end Sys2Proof
end

