-- ==== Sys2Proof/WellFormed.lean ====
section
/-! DEFINITION. The range checks on a command's fields (spec/30_encoding.md R116 step 3, R118): RCON
takes R in 0..9, ADDRK takes R in 0..10, and every value of MD5FINAL's field L is legal (R113). -/

namespace Sys2Proof

/-- The command's fields lie in the ranges of Table 30-1. -/
def Instr.wellFormed : Instr → Bool
  | .rcon r => r ≤ 9#4
  | .addrk r => r ≤ 10#4
  | .nop | .gfmul | .sbox | .invsbox | .sboxgen | .rotword | .subword | .keyexp | .subbytes
  | .invsubbytes | .shiftrows | .invshiftrows | .mixcolumns | .invmixcolumns | .encrypt | .decrypt
  | .md5init | .md5block | .md5final _ => true

end Sys2Proof
end

