-- ==== Sys2Proof/Decode.lean ====
section
/-! DEFINITION. The command decoder of spec/30_encoding.md R116, total over all 2^32 words, and the
encoder written from the same table. Decoding depends on the word alone (R119): the checks that
need the state (BUSY, RKV) stand in Machine/Port.lean. -/

namespace Sys2Proof

/-- The bits a format uses (R116: N 0xFF, R 0xFFF, L 0x3FFF). -/
def Format.usedMask : Format → Word
  | .n => 0x000000FF#32
  | .r => 0x00000FFF#32
  | .l => 0x00003FFF#32

/-- A row of the opcode map: the opcode byte, the format, and the command that the fields R and L of
the word make (a format that lacks a field ignores it). -/
structure OpcodeRow where
  opcode : Byte
  format : Format
  build : BitVec 4 → BitVec 6 → Instr

/-- Table 30-1 (R115). -/
def opcodeTable : List OpcodeRow :=
  [ ⟨0x00#8, .n, fun _ _ => .nop⟩,
    ⟨0x01#8, .n, fun _ _ => .gfmul⟩,
    ⟨0x02#8, .n, fun _ _ => .sbox⟩,
    ⟨0x03#8, .n, fun _ _ => .invsbox⟩,
    ⟨0x04#8, .n, fun _ _ => .sboxgen⟩,
    ⟨0x05#8, .n, fun _ _ => .rotword⟩,
    ⟨0x06#8, .n, fun _ _ => .subword⟩,
    ⟨0x07#8, .r, fun r _ => .rcon r⟩,
    ⟨0x10#8, .n, fun _ _ => .keyexp⟩,
    ⟨0x11#8, .r, fun r _ => .addrk r⟩,
    ⟨0x12#8, .n, fun _ _ => .subbytes⟩,
    ⟨0x13#8, .n, fun _ _ => .invsubbytes⟩,
    ⟨0x14#8, .n, fun _ _ => .shiftrows⟩,
    ⟨0x15#8, .n, fun _ _ => .invshiftrows⟩,
    ⟨0x16#8, .n, fun _ _ => .mixcolumns⟩,
    ⟨0x17#8, .n, fun _ _ => .invmixcolumns⟩,
    ⟨0x18#8, .n, fun _ _ => .encrypt⟩,
    ⟨0x19#8, .n, fun _ _ => .decrypt⟩,
    ⟨0x20#8, .n, fun _ _ => .md5init⟩,
    ⟨0x21#8, .n, fun _ _ => .md5block⟩,
    ⟨0x22#8, .l, fun _ l => .md5final l⟩ ]

/-- The opcode field `c[7:0]` (R110). -/
def opcodeField (c : Word) : Byte := c.extractLsb' 0 8

/-- The field `R = c[11:8]` of format R, unsigned (R112, R114). -/
def rField (c : Word) : BitVec 4 := c.extractLsb' 8 4

/-- The field `L = c[13:8]` of format L, unsigned (R113, R114). -/
def lField (c : Word) : BitVec 6 := c.extractLsb' 8 6

/-- The row of the opcode map that an opcode byte names; none for a reserved opcode (R117). -/
def opcodeRow? (op : Byte) : Option OpcodeRow := opcodeTable.find? fun row => row.opcode == op

/-- The decoder of R116: reserved opcode first, then bits outside the format, then the field's range. -/
def decode (c : Word) : Except CmdError Instr :=
  match opcodeRow? (opcodeField c) with
  | none => .error .eopcode
  | some row =>
    if c &&& ~~~row.format.usedMask = 0#32 then
      let i := row.build (rField c) (lField c)
      if i.wellFormed then .ok i else .error .erange
    else .error .ersvd

/-- The opcode of a command (Table 30-1). -/
def Instr.opcode : Instr → Byte
  | .nop => 0x00#8
  | .gfmul => 0x01#8
  | .sbox => 0x02#8
  | .invsbox => 0x03#8
  | .sboxgen => 0x04#8
  | .rotword => 0x05#8
  | .subword => 0x06#8
  | .rcon _ => 0x07#8
  | .keyexp => 0x10#8
  | .addrk _ => 0x11#8
  | .subbytes => 0x12#8
  | .invsubbytes => 0x13#8
  | .shiftrows => 0x14#8
  | .invshiftrows => 0x15#8
  | .mixcolumns => 0x16#8
  | .invmixcolumns => 0x17#8
  | .encrypt => 0x18#8
  | .decrypt => 0x19#8
  | .md5init => 0x20#8
  | .md5block => 0x21#8
  | .md5final _ => 0x22#8

/-- The argument of a command, as it stands above the opcode byte: R, L, or 0 (R111 to R113). -/
def Instr.argument : Instr → Word
  | .rcon r | .addrk r => r.setWidth 32
  | .md5final l => l.setWidth 32
  | .nop | .gfmul | .sbox | .invsbox | .sboxgen | .rotword | .subword | .keyexp | .subbytes
  | .invsubbytes | .shiftrows | .invshiftrows | .mixcolumns | .invmixcolumns | .encrypt | .decrypt
  | .md5init | .md5block => 0#32

/-- The assembled word of R120: `zext_32(OPCODE) | (argument << 8)`. The assembler refuses an operand
outside its range: `assemble?`. -/
def encode (i : Instr) : Word := i.opcode.setWidth 32 ||| (i.argument <<< 8)

/-- "an assembler refuses an operand outside the range of Table 30-1 rather than emit an illegal word"
(R120). -/
def assemble? (i : Instr) : Option Word := if i.wellFormed then some (encode i) else none

/-- The host's question: the command this decoder reads from a table word of `nbits` bits `w`. Every
command is one 32-bit word (R110); the bits above `nbits` are 0. -/
def decodeTableWord (nbits w : Nat) : Option Instr :=
  (decode (BitVec.ofNat 32 (w % 2 ^ nbits))).toOption

end Sys2Proof
end

