-- ==== Sys2Proof/Machine/State.lean ====
section
/-! DEFINITION. The state of the block as plain data: every register, flag and hidden item that
spec/10_state.md gives it, then the model's own fields (the environment's script, the free-value
counter, the last bus reply). The constants ID, T and S hold no state: they are in
Machine/Ops.lean and Machine/Md5.lean. The block has no program counter (R31), no memory besides
the register window (R60) and no modes (R290). -/

namespace Sys2Proof.Machine

/-- A host access to the register window at some offset: a read of `n` bytes, or a write of `n` bytes
(spec/00_scope.md R18). Only `n = 4` is performed (spec/20_memory.md R82), so a write carries one word. -/
inductive HostAccess where
  | read (n : Nat)
  | write (n : Nat) (v : Word)
  deriving DecidableEq, Repr

/-- What the environment does next to the block (spec/00_scope.md R24). -/
inductive Event where
  /-- The host performs an access at a 12-bit offset of the window (R80, R82). -/
  | host (off : BitVec 12) (a : HostAccess)
  /-- A bus master performs an access at a bus address; the block answers only inside the window (R83). -/
  | bus (addr : Nat) (a : HostAccess)
  /-- The latency of what is in flight has elapsed: the core takes its completion step (R145, R166). -/
  | complete
  /-- The platform asserts the hardware reset input (R310). -/
  | reset
  deriving DecidableEq, Repr

/-- The block's answer to the last performed host access: the value of a read, or the acknowledgement of
a write. An access that is not performed is a fault outcome and leaves no reply (R82). -/
inductive BusReply where
  | idle
  | data (v : Word)
  | ack
  deriving DecidableEq, Repr

/-- The state of the block. -/
structure State where
  /-- CTRL[0] (R33). -/
  doneIe : Bool
  /-- CTRL[1] (R33). -/
  errIe : Bool
  /-- STATUS[0] (R36). -/
  busy : Bool
  /-- STATUS[1] (R37). -/
  done : Bool
  /-- STATUS[2] (R38). -/
  err : Bool
  /-- STATUS[3] (R39). -/
  tready : Bool
  /-- STATUS[4] (R40). -/
  rkv : Bool
  /-- STATUS[5] (R41). -/
  dvalid : Bool
  /-- STATUS[11:8] (R38, R281). -/
  errCode : BitVec 4
  /-- OPA (R44). -/
  opa : Word
  /-- OPB (R44). -/
  opb : Word
  /-- RES (R45). -/
  res : Word
  /-- KEY[0..3] (R46). -/
  key : Vector Word 4
  /-- ST[0..3] (R47). -/
  st : Vector Word 4
  /-- M[0..15] (R48). -/
  m : Vector Word 16
  /-- H[0..3] (R49). -/
  h : Vector Word 4
  /-- CNT (R50). -/
  cnt : BitVec 64
  /-- RK[0..43] (R51). -/
  rk : Vector Word 44
  /-- SBOX[0..255] (R52). -/
  sbox : Vector Byte 256
  /-- ISBOX[0..255] (R52). -/
  isbox : Vector Byte 256
  /-- CUR, the accepted command word while it is in flight (R58). -/
  cur : Option Word
  /-- GEN, 1 while a table generation is in flight (R58). -/
  gen : Bool
  /-- MODEL'S OWN: the answer to the last host access. -/
  reply : BusReply
  /-- MODEL'S OWN: how many free values have been drawn (log entry 1). -/
  draws : Nat
  /-- MODEL'S OWN: what the environment does next, oldest first (log entry 2). -/
  inputs : List Event
  deriving DecidableEq, Repr

/-- Why a step stops. -/
inductive Fault where
  /-- Raised by a host access of a width other than 4 bytes or at an offset whose bits 1:0 are not 0: the
  bus answers with an error response and the block's state is unchanged (R82, R282: "A model treats a
  BusError as a fault outcome of the host step"). Safe. -/
  | busError (off : BitVec 12)
  /-- Raised by the core's step when BUSY = 1 with no command and no generation in flight, a state that
  no run reaches (`Safety.Sound`) and for which the spec gives no step (R145). Safe. -/
  | nothingInFlight
  /-- Raised by the core's step when CUR holds a word that is no legal command, a state that no run reaches
  because only decoded words are accepted (R141). Safe. -/
  | illegalInFlight (c : Word)
  deriving DecidableEq, Repr

/-- Why an instruction has no meaning at the operands given. -/
inductive Refusal where
  /-- Raised by an arm of `exec` for an instruction that has no meaning yet; no arm is left so. Safe. -/
  | notModelled (mnemonic : String)
  /-- Raised by RCON or ADDRK applied to a field that no legal word carries (R118): the decoder never yields
  such a term, the error ERANGE being raised at issue. Safe. -/
  | fieldOutOfRange (mnemonic : String)
  deriving DecidableEq, Repr

/-- The constants the MD5 accumulators hold after reset and after MD5INIT (R49, R247). -/
def md5Initial : Vector Word 4 := #v[0x67452301#32, 0xEFCDAB89#32, 0x98BADCFE#32, 0x10325476#32]

/-- The state right after reset (spec/70_reset_and_hazards.md R310, R311). SBOX and ISBOX hold "any value
until TREADY = 1": no access or command reads what is stored there (log entry 3). -/
def State.reset : State where
  doneIe := false
  errIe := false
  busy := true
  done := false
  err := false
  tready := false
  rkv := false
  dvalid := false
  errCode := 0#4
  opa := 0#32
  opb := 0#32
  res := 0#32
  key := Vector.replicate 4 0#32
  st := Vector.replicate 4 0#32
  m := Vector.replicate 16 0#32
  h := md5Initial
  cnt := 0#64
  rk := Vector.replicate 44 0#32
  sbox := Vector.replicate 256 0#8
  isbox := Vector.replicate 256 0#8
  cur := none
  gen := true
  reply := .idle
  draws := 0
  inputs := []

end Sys2Proof.Machine
end

