-- ==== Sys2Proof/Machine/Ops.lean ====
section
/-! DEFINITION. The named operations every other file of the machine is built from: the byte and word
helpers of spec/00_scope.md R16 and R17, the register map of spec/10_state.md R30, the recording of a
command error (this block's whole "exception entry", spec/60_exceptions.md R285), and the
acceptance, completion and reset of spec/40_command.md and spec/70_reset_and_hazards.md. -/

namespace Sys2Proof

/-- The value recorded in STATUS.ERRCODE (R281). -/
def CmdError.code : CmdError → BitVec 4
  | .ebusy => 1#4
  | .eopcode => 2#4
  | .ersvd => 3#4
  | .erange => 4#4
  | .enork => 5#4

end Sys2Proof

namespace Sys2Proof.Machine

/-- The outcome of a step or of a meaning. -/
abbrev Result := Host.Outcome State Fault Refusal

/-! ## Bytes and words -/

/-- Big-endian byte `i` of a word: byte 0 is the most significant (R17). -/
def bebyte (w : Word) (i : Fin 4) : Byte := w.extractLsb' (24 - 8 * i.val) 8

/-- The word whose big-endian bytes are given (R17). -/
def beword (b0 b1 b2 b3 : Byte) : Word :=
  (b0.setWidth 32 <<< 24) ||| (b1.setWidth 32 <<< 16) ||| (b2.setWidth 32 <<< 8) ||| b3.setWidth 32

/-- Little-endian byte `i` of a word: byte 0 is the least significant (R17). -/
def lebyte (w : Word) (i : Fin 4) : Byte := w.extractLsb' (8 * i.val) 8

/-- The word whose little-endian bytes are given (R17). -/
def leword (b0 b1 b2 b3 : Byte) : Word :=
  b0.setWidth 32 ||| (b1.setWidth 32 <<< 8) ||| (b2.setWidth 32 <<< 16) ||| (b3.setWidth 32 <<< 24)

/-- `rotl8` of R16. -/
def rotl8 (v : Byte) (k : Nat) : Byte := v.rotateLeft k

/-- `rotl32` of R16. -/
def rotl32 (v : Word) (k : Nat) : Word := v.rotateLeft k

/-- `zext_32` of a byte (R15, R96). -/
def zext32 (b : Byte) : Word := b.setWidth 32

/-- The low byte `v[7:0]` of a word (R14). -/
def lowByte (v : Word) : Byte := v.extractLsb' 0 8

/-- The four words `f 0, f 1, f 2, f 3`. -/
def words4 (f : Fin 4 → Word) : Vector Word 4 := #v[f 0, f 1, f 2, f 3]

/-- Entry `x` of a 256-entry table. -/
def entry (table : Vector Byte 256) (x : Byte) : Byte := table[x.toNat]'x.isLt

/-! ## The register map -/

/-- The registers of the window (Table 10-1, R30). -/
inductive Reg where
  | id
  | ctrl
  | status
  | cmd
  | opa
  | opb
  | res
  | key (j : Fin 4)
  | st (j : Fin 4)
  | m (k : Fin 16)
  | h (k : Fin 4)
  | cntLo
  | cntHi
  | rk (i : Fin 44)
  | sbox (x : Byte)
  | isbox (x : Byte)
  | t (j : Fin 64)
  | s (j : Fin 64)
  | reserved
  deriving DecidableEq, Repr

/-- The register at an offset of the window (Table 10-1; the offsets it does not name are reserved, R55).
Applied to aligned offsets only (R82). -/
def regAt (off : BitVec 12) : Reg :=
  let o := off.toNat
  if o < 0x020 then
    if o = 0x000 then .id
    else if o = 0x004 then .ctrl
    else if o = 0x008 then .status
    else if o = 0x00C then .cmd
    else if o = 0x010 then .opa
    else if o = 0x014 then .opb
    else if o = 0x018 then .res
    else .reserved
  else if o < 0x030 then .key (Fin.ofNat 4 ((o - 0x020) / 4))
  else if o < 0x040 then .st (Fin.ofNat 4 ((o - 0x030) / 4))
  else if o < 0x080 then .m (Fin.ofNat 16 ((o - 0x040) / 4))
  else if o < 0x090 then .h (Fin.ofNat 4 ((o - 0x080) / 4))
  else if o = 0x090 then .cntLo
  else if o = 0x094 then .cntHi
  else if o < 0x100 then .reserved
  else if o < 0x1B0 then .rk (Fin.ofNat 44 ((o - 0x100) / 4))
  else if o < 0x400 then .reserved
  else if o < 0x800 then .sbox (BitVec.ofNat 8 ((o - 0x400) / 4))
  else if o < 0xC00 then .isbox (BitVec.ofNat 8 ((o - 0x800) / 4))
  else if o < 0xD00 then .t (Fin.ofNat 64 ((o - 0xC00) / 4))
  else if o < 0xE00 then .s (Fin.ofNat 64 ((o - 0xD00) / 4))
  else .reserved

/-- The offset of a register (Table 10-1); for the reserved offsets, the first of them. -/
def Reg.offset : Reg → BitVec 12
  | .id => 0x000#12
  | .ctrl => 0x004#12
  | .status => 0x008#12
  | .cmd => 0x00C#12
  | .opa => 0x010#12
  | .opb => 0x014#12
  | .res => 0x018#12
  | .key j => BitVec.ofNat 12 (0x020 + 4 * j.val)
  | .st j => BitVec.ofNat 12 (0x030 + 4 * j.val)
  | .m k => BitVec.ofNat 12 (0x040 + 4 * k.val)
  | .h k => BitVec.ofNat 12 (0x080 + 4 * k.val)
  | .cntLo => 0x090#12
  | .cntHi => 0x094#12
  | .rk i => BitVec.ofNat 12 (0x100 + 4 * i.val)
  | .sbox x => BitVec.ofNat 12 (0x400 + 4 * x.toNat)
  | .isbox x => BitVec.ofNat 12 (0x800 + 4 * x.toNat)
  | .t j => BitVec.ofNat 12 (0xC00 + 4 * j.val)
  | .s j => BitVec.ofNat 12 (0xD00 + 4 * j.val)
  | .reserved => 0x01C#12

/-- SBOX or ISBOX, the registers the table generation writes. -/
def Reg.isTable : Reg → Bool
  | .sbox _ | .isbox _ => true
  | .id | .ctrl | .status | .cmd | .opa | .opb | .res | .key _ | .st _ | .m _ | .h _ | .cntLo
  | .cntHi | .rk _ | .t _ | .s _ | .reserved => false

/-- The write set of each command among the registers of the window (spec/40_command.md R146; STATUS is
left out, since a read of STATUS always returns its current fields, R147). -/
def writes : Instr → Reg → Bool
  | .nop, _ => false
  | .gfmul, r | .sbox, r | .invsbox, r | .rotword, r | .subword, r | .rcon _, r => r = .res
  | .sboxgen, r => r.isTable
  | .keyexp, .rk _ => true
  | .keyexp, _ => false
  | .addrk _, .st _ | .subbytes, .st _ | .invsubbytes, .st _ | .shiftrows, .st _
  | .invshiftrows, .st _ | .mixcolumns, .st _ | .invmixcolumns, .st _ => true
  | .addrk _, _ | .subbytes, _ | .invsubbytes, _ | .shiftrows, _ | .invshiftrows, _
  | .mixcolumns, _ | .invmixcolumns, _ => false
  | .encrypt, .st _ | .encrypt, .rk _ | .decrypt, .st _ | .decrypt, .rk _ => true
  | .encrypt, _ | .decrypt, _ => false
  | .md5init, .h _ | .md5block, .h _ | .md5final _, .h _ => true
  | .md5init, .cntLo | .md5block, .cntLo | .md5final _, .cntLo => true
  | .md5init, .cntHi | .md5block, .cntHi | .md5final _, .cntHi => true
  | .md5init, _ | .md5block, _ | .md5final _, _ => false

/-! ## Errors, acceptance, completion, reset -/

/-- `raise CmdError(e)` (R144, R38): the first error since ERR was last 0 is recorded; a later one changes
nothing, and nothing else changes. This is all that "taking an exception" is on this block (R285);
the return from it is the host's write to STATUS (R287), `writeStatus` in Machine/Flags.lean. -/
def raiseCmdError (e : CmdError) (s : State) : State :=
  if s.err then s else { s with err := true, errCode := e.code }

/-- Acceptance of the command `i` whose word is `c` (R143). -/
def accept (c : Word) (i : Instr) (s : State) : State :=
  let t := { s with cur := some c, busy := true, done := false }
  if i = .sboxgen then { t with tready := false, gen := true } else t

/-- The end every completion shares (R145): `STATUS.BUSY <- 0; STATUS.DONE <- 1; CUR <- none`. -/
def complete (s : State) : Result := .next { s with busy := false, done := true, cur := none }

/-- A reset of the block (R310, R34), by the reset input or by CTRL bit 31: every register takes its reset
value, the command in flight is dropped and the table generation starts. The environment's script,
the free-value counter and the last bus reply are not the block's and stay. -/
def resetBlock (s : State) : State :=
  { State.reset with reply := s.reply, draws := s.draws, inputs := s.inputs }

/-- ID, constant at all times (R32). -/
def idWord : Word := 0xAE550703#32

end Sys2Proof.Machine
end

