-- ==== Sys2Proof/Machine/Operands.lean ====
section
/-! DEFINITION. The operand forms of the commands. Every data operand is a register the command reads
implicitly (spec/30_encoding.md R114): the low byte of OPA or OPB, whole words, the AES state as a
matrix of bytes, a round key, and the bytes of the MD5 message block. -/

namespace Sys2Proof.Machine

/-- OPA[7:0]; bits 31:8 are ignored (R114, R161). -/
def opaByte (s : State) : Byte := lowByte s.opa

/-- OPB[7:0]; bits 31:8 are ignored (R114, R161). -/
def opbByte (s : State) : Byte := lowByte s.opb

/-- The AES state as a matrix: row `i`, column `j` is big-endian byte `i` of word `j` (R200). -/
def mat (st : Vector Word 4) (i j : Fin 4) : Byte := bebyte st[j] i

/-- The words of a matrix of bytes (R200, `unmat`). -/
def unmat (t : Fin 4 → Fin 4 → Byte) : Vector Word 4 :=
  words4 fun j => beword (t 0 j) (t 1 j) (t 2 j) (t 3 j)

/-- Word `j` of round key `r`, that is `w[4r + j]` (R51). -/
def roundKeyWord (w : Vector Word 44) (r : Fin 11) (j : Fin 4) : Word := w[4 * r.val + j.val]

/-- Byte `k` of the message block, `lebyte(M[k div 4], k mod 4)` (R48). -/
def messageByte (m : Vector Word 16) (k : Fin 64) : Byte :=
  lebyte (m[k.val / 4]'(by omega)) (Fin.ofNat 4 k.val)

/-- The tail of MD5FINAL: the first `l` bytes of the message block (R251); the bytes at and beyond `l` are
ignored whatever they hold. -/
def tailBytes (m : Vector Word 16) (l : BitVec 6) : List Byte :=
  ((List.finRange 64).map (messageByte m)).take l.toNat

end Sys2Proof.Machine
end

