-- ==== Sys2Proof/Machine/FiniteField.lean ====
section
/-! DEFINITION. The finite-field engine (spec/41_finite_field.md): multiplication in GF(2^8), the content
of the S-box tables, their generation, and the commands GFMUL, SBOX, INVSBOX and SBOXGEN. -/

namespace Sys2Proof.Machine

/-- `xtime(a) = (a << 1)[7:0] ^ (0x1B if bit(a, 7) = 1 else 0x00)` (R20, R160). -/
def xtime (a : Byte) : Byte := (a <<< 1) ^^^ (bif a.getLsbD 7 then 0x1B#8 else 0x00#8)

/-- The remaining `n` iterations of R160's loop, with running product `p`, multiplicand `x`, multiplier `y`. -/
def gfLoop : Nat → Byte → Byte → Byte → Byte
  | 0, p, _, _ => p
  | n + 1, p, x, y => gfLoop n (bif y.getLsbD 0 then p ^^^ x else p) (xtime x) (y >>> 1)

/-- The product of two bytes in GF(2^8) modulo x^8+x^4+x^3+x+1: 8 iterations, the bits of `b` consumed from
the least significant (R160). -/
def gfmul (a b : Byte) : Byte := gfLoop 8 0x00#8 a b

/-- The multiplicative inverse of R163, with `inv(0) = 0`: x^254, computed by doubling the exponent
(1, 3, 7, 15, 31, 63, 127, 254). That it is the inverse is `Obligations.GfmulFieldLaws`. -/
def inv (x : Byte) : Byte :=
  let next := fun y => gfmul (gfmul y y) x
  let x127 := next (next (next (next (next (next x)))))
  gfmul x127 x127

/-- The affine transform of R163. -/
def affine (q : Byte) : Byte := q ^^^ rotl8 q 1 ^^^ rotl8 q 2 ^^^ rotl8 q 3 ^^^ rotl8 q 4 ^^^ 0x63#8

/-- Every byte, 0x00 to 0xFF. -/
def allBytes : List Byte := (List.range 256).map (BitVec.ofNat 8)

/-- SBOX as generated: `SBOX[x] <- affine(inv(x))` for every byte (R163, R164, R166). -/
@[irreducible] def genSbox : Vector Byte 256 :=
  ⟨(allBytes.map fun x => affine (inv x)).toArray, by simp [allBytes]⟩

/-- A table written entry by entry from another: `ISBOX[SBOX[x]] <- x` for x = 0, 1, ..., 255 in order
(R164, R166). -/
def invertTable (sbox : Vector Byte 256) : Vector Byte 256 :=
  allBytes.foldl (fun t x => t.set (entry sbox x).toNat x (entry sbox x).isLt)
    (Vector.replicate 256 0x00#8)

/-- ISBOX as generated, from the generated SBOX (R164, R166). -/
@[irreducible] def genIsbox : Vector Byte 256 := invertTable genSbox

/-- What a table generation writes when it completes: both tables, TREADY <- 1, GEN <- 0 (R164, R166). -/
def writeTables (s : State) : State :=
  { s with sbox := genSbox, isbox := genIsbox, tready := true, gen := false }

/-- `ResetGenComplete()` (R166): the tables, then BUSY <- 0; DONE is not set. -/
def resetGenComplete (s : State) : State := { writeTables s with busy := false }

/-- The end of the commands that write a result: `RES <- v` (R45). -/
def completeRes (v : Word) (s : State) : Result := complete { s with res := v }

/-- GFMUL: `RES <- zext_32(gfmul(OPA[7:0], OPB[7:0]))` (R161). -/
def execGfmul (s : State) : Result := completeRes (zext32 (gfmul (opaByte s) (opbByte s))) s

/-- SBOX: `RES <- zext_32(SBOX[OPA[7:0]])` (R162). -/
def execSbox (s : State) : Result := completeRes (zext32 (entry s.sbox (opaByte s))) s

/-- INVSBOX: `RES <- zext_32(ISBOX[OPA[7:0]])` (R165). -/
def execInvsbox (s : State) : Result := completeRes (zext32 (entry s.isbox (opaByte s))) s

/-- SBOXGEN: both tables are regenerated, TREADY <- 1, GEN <- 0 (R164). -/
def execSboxgen (s : State) : Result := complete (writeTables s)

end Sys2Proof.Machine
end

