-- ==== Sys2Proof/Machine/KeySchedule.lean ====
section
/-! DEFINITION. The AES key schedule (spec/42_key_schedule.md): RotWord, SubWord, RoundConstant, the
44-word expansion, and the commands ROTWORD, SUBWORD, RCON and KEYEXP. -/

namespace Sys2Proof.Machine

/-- `RotWord(w)`: a one-byte left rotation, `rotl32(w, 8)` (R180). -/
def rotWord (w : Word) : Word := rotl32 w 8

/-- A table applied to each of the four bytes of a word (R181 with SBOX, R203 with ISBOX). -/
def subBytesOf (table : Vector Byte 256) (w : Word) : Word :=
  beword (entry table (bebyte w 0)) (entry table (bebyte w 1)) (entry table (bebyte w 2))
    (entry table (bebyte w 3))

/-- `rc(0) = 0x01`, `rc(r+1) = xtime(rc(r))` (R182). -/
def rc : Nat → Byte
  | 0 => 0x01#8
  | r + 1 => xtime (rc r)

/-- `RoundConstant[r] = rc(r) << 24` (R182). -/
def roundConstant (r : Nat) : Word := zext32 (rc r) <<< 24

/-- The four words of the round key after `k`, made with round constant `r`: words 4(r+1) .. 4(r+1)+3 of
R183, the first of which has an index divisible by 4. -/
def nextRoundKey (sbox : Vector Byte 256) (r : Nat) (k : Vector Word 4) : Vector Word 4 :=
  let w0 := k[0] ^^^ subBytesOf sbox (rotWord k[3]) ^^^ roundConstant r
  let w1 := k[1] ^^^ w0
  let w2 := k[2] ^^^ w1
  let w3 := k[3] ^^^ w2
  #v[w0, w1, w2, w3]

/-- Round key `r` of the expansion of `k`: the key itself, then each from the one before (R183). -/
def roundKey (sbox : Vector Byte 256) (k : Vector Word 4) : Nat → Vector Word 4
  | 0 => k
  | r + 1 => nextRoundKey sbox r (roundKey sbox k r)

/-- `KeyExpansion(k)`: the 44 words, eleven round keys of four (R183, R51). That they satisfy R183's
recurrence word by word is `Obligations.KeyExpansionFollowsTheRecurrence`. -/
def keyExpansion (sbox : Vector Byte 256) (k : Vector Word 4) : Vector Word 44 :=
  Vector.ofFn fun i => (roundKey sbox k (i.val / 4))[i.val % 4]'(Nat.mod_lt _ (by decide))

/-- `RK <- KeyExpansion(KEY); STATUS.RKV <- 1`, shared by KEYEXP, ENCRYPT and DECRYPT (R184, R208, R209). -/
def expandKey (s : State) : State := { s with rk := keyExpansion s.sbox s.key, rkv := true }

/-- ROTWORD: `RES <- rotl32(OPA, 8)` (R180). -/
def execRotword (s : State) : Result := completeRes (rotWord s.opa) s

/-- SUBWORD: `RES <- SubWord(OPA)` (R181). -/
def execSubword (s : State) : Result := completeRes (subBytesOf s.sbox s.opa) s

/-- RCON: `RES <- rc(R) << 24` for R in 0..9 (R182). A field in 10..15 never gets here: ERANGE is raised
at issue (R118). -/
def execRcon (r : BitVec 4) (s : State) : Result :=
  if r ≤ 9#4 then completeRes (roundConstant r.toNat) s else .refused (.fieldOutOfRange "RCON")

/-- KEYEXP: `RK <- KeyExpansion(KEY); RKV <- 1` (R184). -/
def execKeyexp (s : State) : Result := complete (expandKey s)

end Sys2Proof.Machine
end

