-- ==== Sys2Proof/Machine/AesRounds.lean ====
section
/-! DEFINITION. The AES round pipeline (spec/43_aes_rounds.md): the seven state transformations as
functions from a whole old state to a whole new one (R149), the forward and inverse ciphers
composed of them, and the commands. -/

namespace Sys2Proof.Machine

/-- `ARK(s, w, r)`: word `j` XORed with `w[4r + j]` (R201, R210). -/
def addRoundKey (st : Vector Word 4) (w : Vector Word 44) (r : Fin 11) : Vector Word 4 :=
  words4 fun j => st[j] ^^^ roundKeyWord w r j

/-- SubBytes with the given table: SBOX for R202, ISBOX for R203. -/
def subBytes (table : Vector Byte 256) (st : Vector Word 4) : Vector Word 4 :=
  words4 fun j => subBytesOf table st[j]

/-- ShiftRows: `t[i][j] = s[i][(j + i) mod 4]` (R204). -/
def shiftRows (st : Vector Word 4) : Vector Word 4 := unmat fun i j => mat st i (j + i)

/-- InvShiftRows: `t[i][j] = s[i][(j - i) mod 4]` (R205). -/
def invShiftRows (st : Vector Word 4) : Vector Word 4 := unmat fun i j => mat st i (j - i)

/-- A column multiplied by a circulant matrix whose first row is `c0 c1 c2 c3`: row `r`, column `k` of the
matrix is the coefficient `k - r` mod 4, as in both matrices of R206 and R207. -/
def mulColumn (c0 c1 c2 c3 : Byte) (w : Word) : Word :=
  let row := fun (d0 d1 d2 d3 : Byte) =>
    gfmul d0 (bebyte w 0) ^^^ gfmul d1 (bebyte w 1) ^^^ gfmul d2 (bebyte w 2) ^^^ gfmul d3 (bebyte w 3)
  beword (row c0 c1 c2 c3) (row c3 c0 c1 c2) (row c2 c3 c0 c1) (row c1 c2 c3 c0)

/-- `MixCol`, the matrix [[2,3,1,1],[1,2,3,1],[1,1,2,3],[3,1,1,2]] (R206). -/
def mixCol (w : Word) : Word := mulColumn 0x02#8 0x03#8 0x01#8 0x01#8 w

/-- `InvMixCol`, the matrix [[14,11,13,9],[9,14,11,13],[13,9,14,11],[11,13,9,14]] (R207). -/
def invMixCol (w : Word) : Word := mulColumn 0x0E#8 0x0B#8 0x0D#8 0x09#8 w

/-- MixColumns on every column (R206). -/
def mixColumns (st : Vector Word 4) : Vector Word 4 := words4 fun j => mixCol st[j]

/-- InverseMixColumns on every column (R207). -/
def invMixColumns (st : Vector Word 4) : Vector Word 4 := words4 fun j => invMixCol st[j]

/-- Rounds 1 to 9, the full ones. -/
def fullRounds : List (Fin 11) := [1, 2, 3, 4, 5, 6, 7, 8, 9]

/-- A full forward round: `ARK(MixColumns(ShiftRows(SubBytes(s))), w, r)` (R210). -/
def forwardRound (sbox : Vector Byte 256) (w : Vector Word 44) (st : Vector Word 4) (r : Fin 11) :
    Vector Word 4 :=
  addRoundKey (mixColumns (shiftRows (subBytes sbox st))) w r

/-- A full inverse round: `InvMixColumns(ARK(InvSubBytes(InvShiftRows(s)), w, r))` (R211). -/
def inverseRound (isbox : Vector Byte 256) (w : Vector Word 44) (st : Vector Word 4) (r : Fin 11) :
    Vector Word 4 :=
  invMixColumns (addRoundKey (subBytes isbox (invShiftRows st)) w r)

/-- `Cipher(s, w)`; the last round has no MixColumns (R210). -/
def cipher (sbox : Vector Byte 256) (w : Vector Word 44) (st : Vector Word 4) : Vector Word 4 :=
  let st := fullRounds.foldl (forwardRound sbox w) (addRoundKey st w 0)
  addRoundKey (shiftRows (subBytes sbox st)) w 10

/-- `InvCipher(s, w)`, the rounds in descending order (R211). -/
def invCipher (isbox : Vector Byte 256) (w : Vector Word 44) (st : Vector Word 4) : Vector Word 4 :=
  let st := fullRounds.reverse.foldl (inverseRound isbox w) (addRoundKey st w 10)
  addRoundKey (subBytes isbox (invShiftRows st)) w 0

/-- The end of the commands that write the AES state in place. -/
def completeSt (v : Vector Word 4) (s : State) : Result := complete { s with st := v }

/-- ADDRK: `ST[j] <- ST[j] ^ RK[4R + j]` for R in 0..10 (R201). The check RKV = 1 is made at issue
(R141), where ENORK is raised; a field in 11..15 raises ERANGE there (R118) and never gets here. -/
def execAddrk (r : BitVec 4) (s : State) : Result :=
  if h : r.toNat < 11 then completeSt (addRoundKey s.st s.rk ⟨r.toNat, h⟩) s
  else .refused (.fieldOutOfRange "ADDRK")

/-- SUBBYTES: `ST[j] <- SubWord(ST[j])` (R202). -/
def execSubbytes (s : State) : Result := completeSt (subBytes s.sbox s.st) s

/-- INVSUBBYTES: every byte of ST through ISBOX (R203). -/
def execInvsubbytes (s : State) : Result := completeSt (subBytes s.isbox s.st) s

/-- SHIFTROWS (R204). -/
def execShiftrows (s : State) : Result := completeSt (shiftRows s.st) s

/-- INVSHIFTROWS (R205). -/
def execInvshiftrows (s : State) : Result := completeSt (invShiftRows s.st) s

/-- MIXCOLUMNS: `ST[j] <- MixCol(ST[j])` (R206). -/
def execMixcolumns (s : State) : Result := completeSt (mixColumns s.st) s

/-- INVMIXCOLUMNS: `ST[j] <- InvMixCol(ST[j])` (R207). -/
def execInvmixcolumns (s : State) : Result := completeSt (invMixColumns s.st) s

/-- ENCRYPT: the key is expanded into RK, RKV <- 1, and `ST <- Cipher(ST, w)` (R208); the old RK and RKV
are not read. -/
def execEncrypt (s : State) : Result :=
  let t := expandKey s
  completeSt (cipher t.sbox t.rk t.st) t

/-- DECRYPT: the key is expanded into RK, RKV <- 1, and `ST <- InvCipher(ST, w)` (R209). -/
def execDecrypt (s : State) : Result :=
  let t := expandKey s
  completeSt (invCipher t.isbox t.rk t.st) t

end Sys2Proof.Machine
end

