-- ==== Sys2Proof/Machine/Md5.lean ====
section
/-! DEFINITION. The MD5 engine (spec/44_md5.md): the round functions, the constant tables T and S, the
64-step compression, padding, and the commands MD5INIT, MD5BLOCK and MD5FINAL. -/

namespace Sys2Proof.Machine

/-- The round function of step `j` (R241): F, G, H, I for sixteen steps each. -/
def md5Fn (j : Nat) (x y z : Word) : Word :=
  if j < 16 then (x &&& y) ||| (~~~x &&& z)
  else if j < 32 then (x &&& z) ||| (y &&& ~~~z)
  else if j < 48 then x ^^^ y ^^^ z
  else y ^^^ (x ||| ~~~z)

/-- The message word index of step `j` (R242), before `mod 16`. -/
def md5Index (j : Nat) : Fin 16 :=
  Fin.ofNat 16 (if j < 16 then j else if j < 32 then 5 * j + 1 else if j < 48 then 3 * j + 5 else 7 * j)

/-- T[0..15], Table 44-1 (R243). -/
def md5T0 : List Word :=
  [ 0xD76AA478#32, 0xE8C7B756#32, 0x242070DB#32, 0xC1BDCEEE#32,
    0xF57C0FAF#32, 0x4787C62A#32, 0xA8304613#32, 0xFD469501#32,
    0x698098D8#32, 0x8B44F7AF#32, 0xFFFF5BB1#32, 0x895CD7BE#32,
    0x6B901122#32, 0xFD987193#32, 0xA679438E#32, 0x49B40821#32 ]

/-- T[16..31], Table 44-1 (R243). -/
def md5T1 : List Word :=
  [ 0xF61E2562#32, 0xC040B340#32, 0x265E5A51#32, 0xE9B6C7AA#32,
    0xD62F105D#32, 0x02441453#32, 0xD8A1E681#32, 0xE7D3FBC8#32,
    0x21E1CDE6#32, 0xC33707D6#32, 0xF4D50D87#32, 0x455A14ED#32,
    0xA9E3E905#32, 0xFCEFA3F8#32, 0x676F02D9#32, 0x8D2A4C8A#32 ]

/-- T[32..47], Table 44-1 (R243). -/
def md5T2 : List Word :=
  [ 0xFFFA3942#32, 0x8771F681#32, 0x6D9D6122#32, 0xFDE5380C#32,
    0xA4BEEA44#32, 0x4BDECFA9#32, 0xF6BB4B60#32, 0xBEBFBC70#32,
    0x289B7EC6#32, 0xEAA127FA#32, 0xD4EF3085#32, 0x04881D05#32,
    0xD9D4D039#32, 0xE6DB99E5#32, 0x1FA27CF8#32, 0xC4AC5665#32 ]

/-- T[48..63], Table 44-1 (R243). -/
def md5T3 : List Word :=
  [ 0xF4292244#32, 0x432AFF97#32, 0xAB9423A7#32, 0xFC93A039#32,
    0x655B59C3#32, 0x8F0CCC92#32, 0xFFEFF47D#32, 0x85845DD1#32,
    0x6FA87E4F#32, 0xFE2CE6E0#32, 0xA3014314#32, 0x4E0811A1#32,
    0xF7537E82#32, 0xBD3AF235#32, 0x2AD7D2BB#32, 0xEB86D391#32 ]

/-- The additive constants T[0..63] (R53, R243). -/
def md5T : Vector Word 64 := ⟨(md5T0 ++ md5T1 ++ md5T2 ++ md5T3).toArray, rfl⟩

/-- The four rotation groups G[0..3] of R244. -/
def md5Groups : Vector (Vector Nat 4) 4 :=
  #v[#v[7, 12, 17, 22], #v[5, 9, 14, 20], #v[4, 11, 16, 23], #v[6, 10, 15, 21]]

/-- `S[j] = G[j div 16][j mod 4]` (R54, R244). -/
def md5S (j : Fin 64) : Nat := (md5Groups[j.val / 16]'(by omega))[j.val % 4]'(by omega)

/-- The register that plays role `role` (a = 0, b = 1, c = 2, d = 3) at step `j`: `(role + 3j) mod 4`
(R245). -/
def md5Role (role : Nat) (j : Fin 64) : Fin 4 := Fin.ofNat 4 (role + 3 * j.val)

/-- One step of the compression on the working registers (R245). -/
def md5Step (x : Vector Word 16) (v : Vector Word 4) (j : Fin 64) : Vector Word 4 :=
  let a := v[md5Role 0 j]
  let b := v[md5Role 1 j]
  let c := v[md5Role 2 j]
  let d := v[md5Role 3 j]
  v.set (md5Role 0 j) (b + rotl32 (a + md5Fn j.val b c d + x[md5Index j.val] + md5T[j]) (md5S j))

/-- `Compress(h, X)`: 64 steps, then the working registers added back (R246). -/
def compress (h : Vector Word 4) (x : Vector Word 16) : Vector Word 4 :=
  let v := (List.finRange 64).foldl (md5Step x) h
  words4 fun k => h[k] + v[k]

/-- `le64(n)`: the 8 bytes of `n`, least significant first (R249). -/
def le64 (n : BitVec 64) : List Byte := (List.range 8).map fun i => n.extractLsb' (8 * i) 8

/-- The least `z` with `(len + 1 + z) mod 64 = 56` (R249, R251). -/
def padZeros (len : Nat) : Nat := (55 + (64 - len % 64)) % 64

/-- The padding of R249 and R251: 0x80, zero bytes up to 56 mod 64, then the bit length of a message of
`n` bytes, `(n << 3)[63:0]`, as 8 little-endian bytes. For R251 the bytes are the tail and `n` the
whole message's count. -/
def padWith (bytes : List Byte) (n : BitVec 64) : List Byte :=
  bytes ++ [0x80#8] ++ List.replicate (padZeros bytes.length) 0x00#8 ++ le64 (n <<< 3)

/-- Block `b` of a byte sequence as 16 little-endian words (R251, R252). Applied where the block is whole,
so the 0 that stands for a missing byte is never used. -/
def blockWords (p : List Byte) (b : Nat) : Vector Word 16 :=
  Vector.ofFn fun k =>
    let byte := fun i => p.getD (64 * b + 4 * k.val + i) 0x00#8
    leword (byte 0) (byte 1) (byte 2) (byte 3)

/-- Every 64-byte block of a padded byte sequence compressed in order (R252). -/
def compressAll (h : Vector Word 4) (p : List Byte) : Vector Word 4 :=
  (List.range (p.length / 64)).foldl (fun h b => compress h (blockWords p b)) h

/-- `Pad(msg)` of a whole message (R249). -/
def padMessage (msg : List Byte) : List Byte := padWith msg (BitVec.ofNat 64 msg.length)

/-- The accumulators after a whole message: padding, then compression from the initial constants (R256). -/
def md5Message (msg : List Byte) : Vector Word 4 := compressAll md5Initial (padMessage msg)

/-- The digest in the accumulators: byte `4k + i` is `lebyte(H[k], i)` (R255). -/
def digest (h : Vector Word 4) : List Byte :=
  (List.finRange 4).flatMap fun k => (List.finRange 4).map fun i => lebyte h[k] i

/-- MD5INIT: the initial constants, CNT <- 0, DVALID <- 0; M is not cleared (R247). -/
def execMd5init (s : State) : Result := complete { s with h := md5Initial, cnt := 0#64, dvalid := false }

/-- MD5BLOCK: `H <- Compress(H, M); CNT <- CNT +64 64; DVALID <- 0` (R248). -/
def execMd5block (s : State) : Result :=
  complete { s with h := compress s.h s.m, cnt := s.cnt + 64#64, dvalid := false }

/-- MD5FINAL L: the first L bytes of M padded with the count `n = CNT +64 L` and compressed, one or two
blocks; `CNT <- n; DVALID <- 1` (R252). -/
def execMd5final (l : BitVec 6) (s : State) : Result :=
  let n := s.cnt + l.setWidth 64
  complete { s with h := compressAll s.h (padWith (tailBytes s.m l) n), cnt := n, dvalid := true }

end Sys2Proof.Machine
end

