-- ==== Sys2Proof/Machine/System.lean ====
section
/-! DEFINITION. The command that computes nothing (spec/40_command.md R150). The other system-level
operations of R152 are SBOXGEN (Machine/FiniteField.lean), the soft reset and the error clear
(Machine/Flags.lean). -/

namespace Sys2Proof.Machine

/-- NOP: `Effect(NOP) = skip`; BUSY <- 0 and DONE <- 1 as at every completion (R150). -/
def execNop (s : State) : Result := complete s

end Sys2Proof.Machine
end

