-- ==== Sys2Proof/Machine/Dispatch.lean ====
section
/-! DEFINITION. One arm for each command: its effect at completion (spec/40_command.md R145). -/

namespace Sys2Proof.Machine

def exec (i : Instr) (s : State) : Host.Outcome State Fault Refusal :=
  match i with
  | .nop => Sys2Proof.Machine.execNop s
  | .gfmul => Sys2Proof.Machine.execGfmul s
  | .sbox => Sys2Proof.Machine.execSbox s
  | .invsbox => Sys2Proof.Machine.execInvsbox s
  | .sboxgen => Sys2Proof.Machine.execSboxgen s
  | .rotword => Sys2Proof.Machine.execRotword s
  | .subword => Sys2Proof.Machine.execSubword s
  | .rcon r => Sys2Proof.Machine.execRcon r s
  | .keyexp => Sys2Proof.Machine.execKeyexp s
  | .addrk r => Sys2Proof.Machine.execAddrk r s
  | .subbytes => Sys2Proof.Machine.execSubbytes s
  | .invsubbytes => Sys2Proof.Machine.execInvsubbytes s
  | .shiftrows => Sys2Proof.Machine.execShiftrows s
  | .invshiftrows => Sys2Proof.Machine.execInvshiftrows s
  | .mixcolumns => Sys2Proof.Machine.execMixcolumns s
  | .invmixcolumns => Sys2Proof.Machine.execInvmixcolumns s
  | .encrypt => Sys2Proof.Machine.execEncrypt s
  | .decrypt => Sys2Proof.Machine.execDecrypt s
  | .md5init => Sys2Proof.Machine.execMd5init s
  | .md5block => Sys2Proof.Machine.execMd5block s
  | .md5final l => Sys2Proof.Machine.execMd5final l s

end Sys2Proof.Machine
end

