-- ==== Sys2Proof/Config.lean ====
section
/-! DEFINITION. What one implementation or one platform fixes, and the free values. Every constant
here is opaque: nothing in Lean can evaluate it, so a theorem about the model holds for every value. -/

namespace Sys2Proof

/-- `P_BASE`: the bus address of offset 0 of the 4096-byte register window (R13, R80, R83). -/
opaque Config.pBase : Nat

/-- Where the platform connects the interrupt output: the controller, its line and the priority
(the three things `P_IRQ` covers in the parameter table of spec/92_eei_decisions.md). -/
structure IrqRoute where
  controller : Nat
  line : Nat
  priority : Nat
  deriving DecidableEq, Repr, Inhabited

/-- `P_IRQ`: the platform's routing of the interrupt output (R13, R286). -/
opaque Config.pIrq : IrqRoute

/-- The FREE VALUES. `Config.draw n` is the `n`-th value the block returns for a read whose result the
spec leaves open: a register of the in-flight command's write set while BUSY = 1 (R147) and a table
entry while TREADY = 0 (R167). The step applies it to `State.draws`, which then advances, so two
reads of one entry may differ. Log entry 1. -/
opaque Config.draw : Nat → Word

/-- `P_LAT`, stated as cycles beyond the first: the raw number of an implementation, which may depend
on the command word and on the values of every operand (R13, R330; `Machine.operandWords`). -/
opaque Config.latencyBeyondOne : Word → List Word → Nat

/-- `P_GEN_LAT`, stated as cycles beyond the first (R13). -/
opaque Config.generationBeyondOne : Nat

end Sys2Proof
end

