-- ==== Sys2Proof/Machine/Flags.lean ====
section
/-! DEFINITION. The flags. The block has no condition codes (spec/10_state.md R57): its flags are the
fields of STATUS and CTRL, read packed (R33, R35), cleared by writing one (R42), and combined into
the interrupt output (spec/60_exceptions.md R286). -/

namespace Sys2Proof.Machine

/-- A one-bit field at bit `k` of a word. -/
def flagAt (k : Nat) (b : Bool) : Word := (BitVec.ofBool b).setWidth 32 <<< k

/-- STATUS as a read returns it (R35): BUSY, DONE, ERR, TREADY, RKV, DVALID in bits 0 to 5, ERRCODE in bits
11:8, every other bit 0. -/
def statusWord (s : State) : Word :=
  flagAt 0 s.busy ||| flagAt 1 s.done ||| flagAt 2 s.err ||| flagAt 3 s.tready ||| flagAt 4 s.rkv
    ||| flagAt 5 s.dvalid ||| (s.errCode.setWidth 32 <<< 8)

/-- CTRL as a read returns it (R33): `zext_32(ERR_IE << 1 | DONE_IE)`, bit 31 reading 0. -/
def ctrlWord (s : State) : Word := flagAt 1 s.errIe ||| flagAt 0 s.doneIe

/-- A host write to STATUS (R42): bit 1 clears DONE, bit 2 clears ERR and ERRCODE, the rest is ignored. -/
def writeStatus (v : Word) (s : State) : State :=
  { s with
    done := s.done && !v.getLsbD 1
    err := s.err && !v.getLsbD 2
    errCode := if v.getLsbD 2 then 0#4 else s.errCode }

/-- A host write to CTRL (R33, R34): with bit 31 set it is a soft reset and its other bits are discarded;
otherwise it updates the two interrupt enables. -/
def writeCtrl (v : Word) (s : State) : State :=
  if v.getLsbD 31 then resetBlock s
  else { s with doneIe := v.getLsbD 0, errIe := v.getLsbD 1 }

/-- The interrupt output, a combinational function of the registers (R286). -/
def irq (s : State) : Bool := (s.done && s.doneIe) || (s.err && s.errIe)

/-- The interrupt output where the platform routes it: asserted on the route `P_IRQ` and on no other. -/
def irqAt (route : IrqRoute) (s : State) : Bool := decide (route = Config.pIrq) && irq s

end Sys2Proof.Machine
end

