-- ==== Sys2Proof/Machine/Port.lean ====
section
/-! DEFINITION. The host port (spec/20_memory.md): reads and writes of the register window, the issue of a
command by a write to CMD with its checks (spec/40_command.md R141, R142), and what an access does
while BUSY = 1 (R147, R148). -/

namespace Sys2Proof.Machine

/-! ## Reads -/

/-- The value a register holds, as a read returns it when the spec fixes it (spec/10_state.md R30 to R55). -/
def regValue (s : State) : Reg → Word
  | .id => idWord
  | .ctrl => ctrlWord s
  | .status => statusWord s
  | .cmd => 0#32
  | .opa => s.opa
  | .opb => s.opb
  | .res => s.res
  | .key j => s.key[j]
  | .st j => s.st[j]
  | .m k => s.m[k]
  | .h k => s.h[k]
  | .cntLo => s.cnt.extractLsb' 0 32
  | .cntHi => s.cnt.extractLsb' 32 32
  | .rk i => s.rk[i]
  | .sbox x => zext32 (entry s.sbox x)
  | .isbox x => zext32 (entry s.isbox x)
  | .t j => md5T[j]
  | .s j => BitVec.ofNat 32 (md5S j)
  | .reserved => 0#32

/-- The in-flight work, a command or the reset-time generation, writes this register (R146, R147). -/
def inFlightWrites (s : State) (r : Reg) : Bool :=
  match s.cur with
  | none => s.gen && r.isTable
  | some c =>
    match decode c with
    | .ok i => writes i r
    | .error _ => false

/-- A read of this register returns any value: it is in the write set of what is in flight (R147), or it
is a table entry while TREADY = 0 (R167). -/
def readsOpen (s : State) (r : Reg) : Bool :=
  (s.busy && inFlightWrites s r) || (!s.tready && r.isTable)

/-- The free value the next open read returns; a table entry keeps bits 31:8 at 0 (R147, R167). -/
def openValue (s : State) (r : Reg) : Word :=
  if r.isTable then zext32 (lowByte (Config.draw s.draws)) else Config.draw s.draws

/-- The value a read of a register returns. -/
def readValue (s : State) (r : Reg) : Word := if readsOpen s r then openValue s r else regValue s r

/-- The state after a read: no read has a side effect on the block (R86); an open read advances the
model's free-value counter. -/
def afterRead (s : State) (r : Reg) : State :=
  if readsOpen s r then { s with draws := s.draws + 1 } else s

/-- The one legal access form: 4 bytes at an offset whose bits 1:0 are 0 (R82). -/
def accessLegal (off : BitVec 12) (n : Nat) : Bool := n = 4 ∧ off.extractLsb' 0 2 = 0#2

/-- `MemRead(off, n)` (R82). -/
def memRead (off : BitVec 12) (n : Nat) (s : State) : Result :=
  if accessLegal off n then
    .next { afterRead s (regAt off) with reply := .data (readValue s (regAt off)) }
  else .fault (.busError off)

/-! ## Writes -/

/-- The command needs valid round keys, a check made at issue: ADDRK alone (R141, R201). -/
def needsRoundKeys : Instr → Bool
  | .addrk _ => true
  | .nop | .gfmul | .sbox | .invsbox | .sboxgen | .rotword | .subword | .rcon _ | .keyexp | .subbytes
  | .invsubbytes | .shiftrows | .invshiftrows | .mixcolumns | .invmixcolumns | .encrypt | .decrypt
  | .md5init | .md5block | .md5final _ => false

/-- A write to CMD (R141): the checks in the order EBUSY, EOPCODE, ERSVD, ERANGE, ENORK (R142), then the
acceptance (R143). -/
def writeCmd (c : Word) (s : State) : State :=
  if s.busy then raiseCmdError .ebusy s
  else
    match decode c with
    | .error e => raiseCmdError e s
    | .ok i => if needsRoundKeys i && !s.rkv then raiseCmdError .enork s else accept c i s

/-- A write to an input register (R44, R46, R47, R48): while BUSY = 1 it is ignored and raises EBUSY
(R148). -/
def writeInput (store : State) (s : State) : State :=
  if s.busy then raiseCmdError .ebusy s else store

/-- A host write to a register. Read-only registers and reserved offsets ignore it (R84, R55); CTRL and
STATUS take it at any time (R33, R42). -/
def writeReg (s : State) (r : Reg) (v : Word) : State :=
  match r with
  | .ctrl => writeCtrl v s
  | .status => writeStatus v s
  | .cmd => writeCmd v s
  | .opa => writeInput { s with opa := v } s
  | .opb => writeInput { s with opb := v } s
  | .key j => writeInput { s with key := s.key.set j v, rkv := false } s
  | .st j => writeInput { s with st := s.st.set j v } s
  | .m k => writeInput { s with m := s.m.set k v } s
  | .id | .res | .h _ | .cntLo | .cntHi | .rk _ | .sbox _ | .isbox _ | .t _ | .s _ | .reserved => s

/-- `MemWrite(off, n, v)` (R82). -/
def memWrite (off : BitVec 12) (n : Nat) (v : Word) (s : State) : Result :=
  if accessLegal off n then .next { writeReg s (regAt off) v with reply := .ack }
  else .fault (.busError off)

/-- A host access at an offset of the window (R80). -/
def hostAccess (off : BitVec 12) (a : HostAccess) (s : State) : Result :=
  match a with
  | .read n => memRead off n s
  | .write n v => memWrite off n v s

/-- The offset of a bus address inside the window, `P_BASE .. P_BASE + 0xFFF` (R83); none outside. -/
def windowOffset? (addr : Nat) : Option (BitVec 12) :=
  if Config.pBase ≤ addr ∧ addr < Config.pBase + 4096 then some (BitVec.ofNat 12 (addr - Config.pBase))
  else none

/-- An access at a bus address. Outside the window the block does not decode it, and it changes nothing
here: it belongs to the platform (R83). -/
def busAccess (addr : Nat) (a : HostAccess) (s : State) : Result :=
  match windowOffset? addr with
  | some off => hostAccess off a s
  | none => .next s

end Sys2Proof.Machine
end

