-- ==== Sys2Proof/Machine/Agents.lean ====
section
/-! DEFINITION. The two agents of spec/00_scope.md R24 and how they take turns: the core's completion step
(spec/40_command.md R145), the events of the environment, and the placing of a command in flight. -/

namespace Sys2Proof.Machine

/-- `CoreStep()` when BUSY = 1 (R145): the reset-time generation completes if no command is in flight and
GEN = 1; otherwise the in-flight command word is decoded and its effect performed. -/
def coreStep (s : State) : Result :=
  match s.cur with
  | none => if s.gen then .next (resetGenComplete s) else .fault .nothingInFlight
  | some c =>
    match decode c with
    | .ok i => exec i s
    | .error _ => .fault (.illegalInFlight c)

/-- The core's turn: its step is enabled exactly when BUSY = 1 (R145); otherwise nothing happens. -/
def coreTurn (s : State) : Result := if s.busy then coreStep s else .next s

/-- The environment does one thing to the block. -/
def takeEvent (e : Event) (s : State) : Result :=
  match e with
  | .host off a => hostAccess off a s
  | .bus addr a => busAccess addr a s
  | .complete => coreTurn s
  | .reset => .next (resetBlock s)

/-- A table generation in flight is brought to its end, for a command to be placed after it. -/
def finishGeneration (s : State) : State := if s.gen then writeTables s else s

/-- The command word `c` placed where the core fetches its command: in flight, as its acceptance leaves it
(R143), with the tables generated and no event before it, so that the very next step is its completion
(log entry 4). The check of RKV (R141) is not made. A word that is no legal command cannot be in
flight: it is placed as a write to CMD, so that the very next step records its error. -/
def placeCommand (c : Word) (s : State) : State :=
  let t := { finishGeneration s with inputs := [] }
  match decode c with
  | .ok i => accept c i t
  | .error _ => { t with cur := none, busy := false, inputs := [.host Reg.cmd.offset (.write 4 c)] }

end Sys2Proof.Machine
end

