-- ==== Sys2Proof/Machine/Step.lean ====
section
/-! DEFINITION. The step: the environment's next event, or the core's turn where it has none. -/

namespace Sys2Proof.Machine

/-- One step of the block (spec/00_scope.md R24): the oldest event of the environment's script is taken; with
none left the core takes its turn, so that every completion is eventually taken (R331). -/
def step (s : State) : Host.Outcome State Fault Refusal :=
  match s.inputs with
  | [] => coreTurn s
  | e :: rest => takeEvent e { s with inputs := rest }

/-- The state in which the very next step runs the command whose word is `w` (log entry 4): the word is in
flight, where the core fetches its command. -/
def State.withFetchWord (s : State) (nbits w : Nat) : State :=
  placeCommand (BitVec.ofNat 32 (w % 2 ^ nbits)) s

end Sys2Proof.Machine
end

