-- ==== Sys2Proof/Machine/Script.lean ====
section
/-! DEFINITION. The host syntax and the pseudo-instructions of spec/30_encoding.md R120 to R122, as the
events that make up the environment's script. The host's `wait` loop is the host's own; in a script
the event `complete` stands where the wait ends. -/

namespace Sys2Proof.Machine

/-- `wr NAME, v` is `MemWrite(off(NAME), 4, v)` (R121). -/
def wr (r : Reg) (v : Word) : Event := .host r.offset (.write 4 v)

/-- `rd NAME` is `MemRead(off(NAME), 4)` (R121). -/
def rd (r : Reg) : Event := .host r.offset (.read 4)

/-- `cmd m` is `wr CMD, word(m)` (R121). -/
def cmd (i : Instr) : Event := wr .cmd (encode i)

/-- `x m` is `cmd m; wait` (R121). -/
def x (i : Instr) : List Event := [cmd i, .complete]

/-- A sequence of commands, each followed by `wait`. -/
def commands (is : List Instr) : List Event := is.flatMap x

/-- `aes.round r` (R122). -/
def aesRound (r : BitVec 4) : List Instr := [.subbytes, .shiftrows, .mixcolumns, .addrk r]

/-- `aes.lastround` (R122). -/
def aesLastRound : List Instr := [.subbytes, .shiftrows, .addrk 10#4]

/-- `aes.invround r` (R122). -/
def aesInvRound (r : BitVec 4) : List Instr := [.invshiftrows, .invsubbytes, .addrk r, .invmixcolumns]

/-- `aes.invlastround` (R122). -/
def aesInvLastRound : List Instr := [.invshiftrows, .invsubbytes, .addrk 0#4]

/-- The rounds 1 to 9 as fields of ADDRK. -/
def roundFields : List (BitVec 4) := [1#4, 2#4, 3#4, 4#4, 5#4, 6#4, 7#4, 8#4, 9#4]

/-- `aes.encrypt.steps` (R122). -/
def aesEncryptSteps : List Instr :=
  [.keyexp, .addrk 0#4] ++ roundFields.flatMap aesRound ++ aesLastRound

/-- `aes.decrypt.steps` (R122). -/
def aesDecryptSteps : List Instr :=
  [.keyexp, .addrk 10#4] ++ roundFields.reverse.flatMap aesInvRound ++ aesInvLastRound

/-- `wr4 KEY, w0 w1 w2 w3` (R122). -/
def wr4Key (w : Vector Word 4) : List Event := (List.finRange 4).map fun j => wr (.key j) w[j]

/-- `wr4 ST, w0 w1 w2 w3` (R122). -/
def wr4St (w : Vector Word 4) : List Event := (List.finRange 4).map fun j => wr (.st j) w[j]

/-- The sixteen writes that load the message block (R256). -/
def wrM (w : Vector Word 16) : List Event := (List.finRange 16).map fun k => wr (.m k) w[k]

end Sys2Proof.Machine
end

