-- ==== Sys2Proof/Machine/Timing.lean ====
section
/-! DEFINITION. The block seen cycle by cycle, with the open latencies `P_LAT` and `P_GEN_LAT` of
spec/00_scope.md R13 as opaque numbers. `step` itself leaves the moment of a completion to the
environment's script (R145: "a model takes it at any point after acceptance"); this file says which of
those moments a hardware with given latencies takes, and in what order a cycle's events stand (R93). -/

namespace Sys2Proof.Machine

/-- The block, and in how many cycles what is in flight completes. -/
structure Clocked where
  block : State
  left : Nat
  deriving DecidableEq, Repr

/-- Every value a command may take as an operand, in the order of the register map: its latency may depend
on any of them (R13, R330). These are the inputs that spec/20_memory.md R90 lists: OPA, OPB, KEY, ST, M, H, CNT,
RK and the two tables; the fields R and L are in the command word. -/
def operandWords (s : State) : List Word :=
  [s.opa, s.opb] ++ s.key.toList ++ s.st.toList ++ s.m.toList ++ s.h.toList
    ++ [s.cnt.extractLsb' 0 32, s.cnt.extractLsb' 32 32] ++ s.rk.toList
    ++ s.sbox.toList.map zext32 ++ s.isbox.toList.map zext32

/-- `P_LAT` of the command in flight, or `P_GEN_LAT` of the reset-time generation: at least 1 (R13). -/
def latency (s : State) : Nat :=
  match s.cur with
  | some c => 1 + Config.latencyBeyondOne c (operandWords s)
  | none => 1 + Config.generationBeyondOne

/-- What is in flight starts in this cycle. -/
def start (s : State) : Clocked := ⟨s, latency s⟩

/-- What reaches the block in one cycle: the reset input, and at most one host access. -/
structure CycleInput where
  reset : Bool
  access : Option (BitVec 12 × HostAccess)
  deriving DecidableEq, Repr

/-- The access is a soft reset, a performed write to CTRL with bit 31 = 1 (R34). -/
def softResets : Option (BitVec 12 × HostAccess) → Bool
  | some (off, .write n v) => accessLegal off n && regAt off == .ctrl && v.getLsbD 31
  | some (_, .read _) | none => false

/-- The host access of a cycle, if there is one. -/
def cycleAccess (a : Option (BitVec 12 × HostAccess)) (s : State) : Result :=
  match a with
  | some (off, acc) => hostAccess off acc s
  | none => .next s

/-- The end of a cycle whose host access is done: a latency that is over ends in the core's step (R145,
R166). -/
def endCycle (left : Nat) (s : State) : Host.Outcome Clocked Fault Refusal :=
  if s.busy then
    if left ≤ 1 then
      match coreStep s with
      | .next t => .next ⟨t, 0⟩
      | .fault r => .fault r
      | .refused r => .refused r
    else .next ⟨s, left - 1⟩
  else .next ⟨s, 0⟩

/-- One clock cycle: a reset overrides every other event of it (R310); otherwise the host access comes
first and the completion second (R93). A command accepted, or a generation started, in this cycle
completes `P_LAT` or `P_GEN_LAT` cycles later (R145, R166). -/
def cycle (e : CycleInput) (c : Clocked) : Host.Outcome Clocked Fault Refusal :=
  if e.reset then .next (start (resetBlock c.block))
  else
    match cycleAccess e.access c.block with
    | .next s =>
      if softResets e.access || (!c.block.busy && s.busy) then .next (start s) else endCycle c.left s
    | .fault r => .fault r
    | .refused r => .refused r

/-- Cycles in a row, stopping at the first fault or refusal. -/
def cycles : List CycleInput → Clocked → Host.Outcome Clocked Fault Refusal
  | [], c => .next c
  | e :: es, c =>
    match cycle e c with
    | .next c' => cycles es c'
    | .fault r => .fault r
    | .refused r => .refused r

end Sys2Proof.Machine
end

