-- ==== Sys2Proof/Safety.lean ====
section
/-! DEFINITION. What counts as a sound state and a safe run, in the terms the claims use. -/

namespace Sys2Proof

open Sys2Proof.Machine

/-- The invariant of the block: what the rules of spec/10_state.md promise about its flags and tables in
every state a run reaches. -/
structure Safety.Sound (s : State) : Prop where
  /-- When BUSY = 0 nothing is in flight (R36, R58). -/
  idle : s.busy = false → s.cur = none ∧ s.gen = false
  /-- When BUSY = 1 and no command is in flight, the reset-time generation is (R36, R145). -/
  generationInFlight : s.busy = true → s.cur = none → s.gen = true
  /-- What is in flight is a legal command (R141), and GEN is 1 exactly for SBOXGEN (R143, R146). -/
  command : ∀ c, s.cur = some c → ∃ i, decode c = .ok i ∧ (s.gen = true ↔ i = .sboxgen)
  /-- ADDRK is in flight only with valid round keys (R141). -/
  roundKeysForAddrk : ∀ c r, s.cur = some c → decode c = .ok (.addrk r) → s.rkv = true
  /-- TREADY is 0 exactly while a generation is in flight (R39). -/
  tready : s.tready = !s.gen
  /-- "When TREADY = 1, SBOX and ISBOX hold the tables" (R39, R163). -/
  tables : s.tready = true → s.sbox = genSbox ∧ s.isbox = genIsbox
  /-- "When RKV = 1, RK[0..43] = KeyExpansion(KEY[0..3])" (R40). -/
  roundKeys : s.rkv = true → s.rk = keyExpansion genSbox s.key
  /-- DONE is 0 while something is in flight (R37, R310). -/
  done : s.busy = true → s.done = false
  /-- ERRCODE is 0 exactly when ERR is 0, and 6 to 15 are never recorded (R38, R281). -/
  errors : (s.err = true ↔ s.errCode ≠ 0#4) ∧ s.errCode ≤ 5#4

/-- A performed host access, 4 bytes at an aligned offset (R82). -/
def Safety.legalAccess (off : BitVec 12) : HostAccess → Bool
  | .read n => accessLegal off n
  | .write n _ => accessLegal off n

/-- The event raises no bus error: every access of it that reaches the window is a legal one. -/
def Safety.legalEvent : Event → Bool
  | .host off a => Safety.legalAccess off a
  | .bus addr a =>
    match windowOffset? addr with
    | some off => Safety.legalAccess off a
    | none => true
  | .complete | .reset => true

/-- A safe state: the invariant holds and no access the environment still makes is malformed. -/
def Safety.Safe (s : State) : Prop := Safety.Sound s ∧ ∀ e ∈ s.inputs, Safety.legalEvent e = true

end Sys2Proof
end

