-- ==== Sys2Proof/Certificates/Slice0/Obligations.lean ====
section
/-! DEFINITION. The statements for the provers, and the few notions of the spec they are said in that
the machine itself has no use for. -/

namespace Sys2Proof.Claims

open Sys2Proof.Machine

/-- What every completion does besides the command's own effect (R145). -/
def completed (s : State) : State := { s with busy := false, done := true, cur := none }

/-- The commands whose result goes to RES (R45). -/
def isScalar : Instr → Bool
  | .gfmul | .sbox | .invsbox | .rotword | .subword | .rcon _ => true
  | .nop | .sboxgen | .keyexp | .addrk _ | .subbytes | .invsubbytes | .shiftrows | .invshiftrows
  | .mixcolumns | .invmixcolumns | .encrypt | .decrypt | .md5init | .md5block | .md5final _ => false

/-- The commands of the MD5 engine (R4). -/
def isMd5 : Instr → Bool
  | .md5init | .md5block | .md5final _ => true
  | .nop | .gfmul | .sbox | .invsbox | .sboxgen | .rotword | .subword | .rcon _ | .keyexp | .addrk _
  | .subbytes | .invsubbytes | .shiftrows | .invshiftrows | .mixcolumns | .invmixcolumns | .encrypt
  | .decrypt => false

/-- `t` is `s` after the completion of `i`, with nothing changed outside the write set that the table of
R146 gives `i`. -/
def changesOnlyWriteSet (i : Instr) (s t : State) : Prop :=
  match i with
  | .nop => t = completed s
  | .gfmul | .sbox | .invsbox | .rotword | .subword | .rcon _ => t = { completed s with res := t.res }
  | .sboxgen =>
    t = { completed s with sbox := t.sbox, isbox := t.isbox, tready := t.tready, gen := t.gen }
  | .keyexp => t = { completed s with rk := t.rk, rkv := t.rkv }
  | .addrk _ | .subbytes | .invsubbytes | .shiftrows | .invshiftrows | .mixcolumns | .invmixcolumns =>
    t = { completed s with st := t.st }
  | .encrypt | .decrypt => t = { completed s with st := t.st, rk := t.rk, rkv := t.rkv }
  | .md5init | .md5block | .md5final _ => t = { completed s with h := t.h, cnt := t.cnt, dvalid := t.dvalid }

/-- The carry-less product of two polynomials over GF(2), `b` of degree below 8: the XOR of the shifts of
`a` by the set bits of `b` (R160). -/
def clmul (a : BitVec 16) (b : Byte) : BitVec 16 :=
  (List.range 8).foldl (fun p k => if b.getLsbD k then p ^^^ (a <<< k) else p) 0#16

/-- `rotl8(v, k)` as R16 writes it: `((v << k) | (v >> (8 - k)))[7:0]`. -/
def rotl8Shifts (v : Byte) (k : Nat) : Byte := (v <<< k) ||| (v >>> (8 - k))

/-- The affine transform of R163 over that rotation. -/
def affineShifts (q : Byte) : Byte :=
  q ^^^ rotl8Shifts q 1 ^^^ rotl8Shifts q 2 ^^^ rotl8Shifts q 3 ^^^ rotl8Shifts q 4 ^^^ 0x63#8

/-- The matrix MIX of R206, row by row. -/
def mixMatrix : Vector (Vector Byte 4) 4 :=
  #v[#v[2#8, 3#8, 1#8, 1#8], #v[1#8, 2#8, 3#8, 1#8], #v[1#8, 1#8, 2#8, 3#8], #v[3#8, 1#8, 1#8, 2#8]]

/-- The matrix IMIX of R207, row by row. -/
def invMixMatrix : Vector (Vector Byte 4) 4 :=
  #v[#v[14#8, 11#8, 13#8, 9#8], #v[9#8, 14#8, 11#8, 13#8], #v[13#8, 9#8, 14#8, 11#8],
    #v[11#8, 13#8, 9#8, 14#8]]

/-- Row `r` of a matrix times the column of bytes `a`: `XOR over k of gfmul(MAT[r][k], a_k)` (R206). -/
def matrixTimes (mt : Vector (Vector Byte 4) 4) (a : Fin 4 → Byte) (r : Fin 4) : Byte :=
  gfmul mt[r][0] (a 0) ^^^ gfmul mt[r][1] (a 1) ^^^ gfmul mt[r][2] (a 2) ^^^ gfmul mt[r][3] (a 3)

/-- Table 42-1's row rc(R) (R182). -/
def rcTable : Vector Byte 10 :=
  #v[0x01#8, 0x02#8, 0x04#8, 0x08#8, 0x10#8, 0x20#8, 0x40#8, 0x80#8, 0x1B#8, 0x36#8]

/-- The four working registers of MD5 by role, a, b, c, d. -/
structure Roles where
  a : Word
  b : Word
  c : Word
  d : Word

/-- One MD5 step with the registers renamed after it instead of the indices rotated: the new value takes
the place of b, and b, c, d move to c, d, a (what R245's role rotation stands for). -/
def renamedStep (x : Vector Word 16) (v : Roles) (j : Fin 64) : Roles :=
  { a := v.d
    b := v.b + rotl32 (v.a + md5Fn j.val v.b v.c v.d + x[md5Index j.val] + md5T[j]) (md5S j)
    c := v.b
    d := v.c }

/-- The host sequence of R256 for a message of bytes: `x md5init`, the full 64-byte blocks with `x md5block`
after each, the tail in the words `tail` with `x md5final L`. -/
def md5Script (msg : List Byte) (tail : Vector Word 16) : List Event :=
  x .md5init
    ++ (List.range (msg.length / 64)).flatMap (fun b => wrM (blockWords msg b) ++ x .md5block)
    ++ wrM tail ++ x (.md5final (BitVec.ofNat 6 (msg.length % 64)))

/-- The words `tail` hold the last `N mod 64` bytes of the message in their first bytes; "other bytes any
value" (R256). -/
def holdsTail (msg : List Byte) (tail : Vector Word 16) : Prop :=
  ∀ k : Fin 64, k.val < msg.length % 64 → msg[64 * (msg.length / 64) + k.val]? = some (messageByte tail k)

/-- Table 44-1 (R243), row by row. -/
def tTable : List Nat :=
  [ 0xD76AA478, 0xE8C7B756, 0x242070DB, 0xC1BDCEEE, 0xF57C0FAF, 0x4787C62A, 0xA8304613, 0xFD469501 ] ++
  [ 0x698098D8, 0x8B44F7AF, 0xFFFF5BB1, 0x895CD7BE, 0x6B901122, 0xFD987193, 0xA679438E, 0x49B40821 ] ++
  [ 0xF61E2562, 0xC040B340, 0x265E5A51, 0xE9B6C7AA, 0xD62F105D, 0x02441453, 0xD8A1E681, 0xE7D3FBC8 ] ++
  [ 0x21E1CDE6, 0xC33707D6, 0xF4D50D87, 0x455A14ED, 0xA9E3E905, 0xFCEFA3F8, 0x676F02D9, 0x8D2A4C8A ] ++
  [ 0xFFFA3942, 0x8771F681, 0x6D9D6122, 0xFDE5380C, 0xA4BEEA44, 0x4BDECFA9, 0xF6BB4B60, 0xBEBFBC70 ] ++
  [ 0x289B7EC6, 0xEAA127FA, 0xD4EF3085, 0x04881D05, 0xD9D4D039, 0xE6DB99E5, 0x1FA27CF8, 0xC4AC5665 ] ++
  [ 0xF4292244, 0x432AFF97, 0xAB9423A7, 0xFC93A039, 0x655B59C3, 0x8F0CCC92, 0xFFEFF47D, 0x85845DD1 ] ++
  [ 0x6FA87E4F, 0xFE2CE6E0, 0xA3014314, 0x4E0811A1, 0xF7537E82, 0xBD3AF235, 0x2AD7D2BB, 0xEB86D391 ]

/-- The round function of step `j` on one bit of each operand (R241). -/
def roundBit (j : Nat) (x y z : Bool) : Bool :=
  if j < 16 then (x && y) || (!x && z)
  else if j < 32 then (x && z) || (y && !z)
  else if j < 48 then x ^^ y ^^ z
  else y ^^ (x || !z)

/-- The code that R281 gives an error. -/
def codeNumber : CmdError → Nat
  | .ebusy => 1
  | .eopcode => 2
  | .ersvd => 3
  | .erange => 4
  | .enork => 5

/-- The registers of the window in no command's write set (R146) that no table generation writes: no read of
them is ever open. -/
def neverWritten : Reg → Bool
  | .id | .ctrl | .status | .cmd | .opa | .opb | .key _ | .m _ | .t _ | .s _ | .reserved => true
  | .res | .st _ | .h _ | .cntLo | .cntHi | .rk _ | .sbox _ | .isbox _ => false

/-- What a cycle does to the block, in its order (R93, R310): a reset alone, or else the host access first and
then, when the latency of what was in flight is over and the access is no soft reset, the completion. -/
def cycleScript (e : CycleInput) (c : Clocked) : List Event :=
  if e.reset then [.reset]
  else
    (match e.access with
      | some (off, a) => [.host off a]
      | none => [])
      ++ (if c.block.busy = true ∧ c.left ≤ 1 ∧ softResets e.access = false then [.complete] else [])

/-- A cycle in which nothing reaches the block. -/
def quietCycle : CycleInput := { reset := false, access := none }

end Sys2Proof.Claims

open Sys2Proof Sys2Proof.Machine Sys2Proof.Safety Sys2Proof.Claims

/-! ## Encoding -/

/-- R116, R120: decoding and encoding agree on every word and every command, with every field at every
value the encoding admits. -/
def Obligations.DecodeAgreesWithEncode : Prop :=
  ∀ (c : Word) (i : Instr), decode c = .ok i ↔ i.wellFormed = true ∧ encode i = c

/-- R116: the order of the decoder's checks, said with the numbers of Table 30-1 and not with the
decoder's table. -/
def Obligations.DecoderChecksInOrder : Prop :=
  ∀ c : Word,
    let op := c.toNat % 256
    let arg := c.toNat / 256
    if ¬(op ≤ 0x07 ∨ (0x10 ≤ op ∧ op ≤ 0x19) ∨ (0x20 ≤ op ∧ op ≤ 0x22)) then decode c = .error .eopcode
    else if op = 0x07 then
      if 16 ≤ arg then decode c = .error .ersvd
      else if 9 < arg then decode c = .error .erange
      else decode c = .ok (.rcon (BitVec.ofNat 4 arg))
    else if op = 0x11 then
      if 16 ≤ arg then decode c = .error .ersvd
      else if 10 < arg then decode c = .error .erange
      else decode c = .ok (.addrk (BitVec.ofNat 4 arg))
    else if op = 0x22 then
      if 64 ≤ arg then decode c = .error .ersvd else decode c = .ok (.md5final (BitVec.ofNat 6 arg))
    else if arg ≠ 0 then decode c = .error .ersvd
    else ∃ i, decode c = .ok i ∧ i.opcode.toNat = op ∧ i.argument = 0#32

/-- R118: "exactly 18 (one per format-N opcode) + 10 (RCON) + 11 (ADDRK) + 64 (MD5FINAL) = 103 are legal". -/
def Obligations.LegalWordsNumber103 : Prop :=
  ∃ l : List Word, l.Nodup ∧ l.length = 18 + 10 + 11 + 64 ∧ ∀ c, c ∈ l ↔ ∃ i, decode c = .ok i

/-- R111 to R113, R115: a word of each format written out bit by bit, and the command it stands for. -/
def Obligations.WrittenOutWordsDecode : Prop :=
  decode 0b00000000000000000000000000000001#32 = .ok .gfmul ∧
  decode 0b00000000000000000000000000010110#32 = .ok .mixcolumns ∧
  decode 0b00000000000000000000100100000111#32 = .ok (.rcon 9#4) ∧
  decode 0b00000000000000000000101000010001#32 = .ok (.addrk 10#4) ∧
  decode 0b00000000000000000011111100100010#32 = .ok (.md5final 63#6) ∧
  decode 0b00000000000000000001111100010001#32 = .error .ersvd ∧
  decode 0b11111111111111111111111111111111#32 = .error .eopcode

/-! ## The host port -/

/-- R30, R55, Table 10-1: every register has one aligned offset, and an aligned offset that is no
register's is in one of the four reserved ranges. -/
def Obligations.RegisterMapIsTable10 : Prop :=
  (∀ r : Reg, regAt r.offset = r ∧ r.offset.toNat % 4 = 0) ∧
  ∀ off : BitVec 12, off.toNat % 4 = 0 →
    (regAt off = .reserved ↔
      off.toNat = 0x01C ∨ (0x098 ≤ off.toNat ∧ off.toNat ≤ 0x0FC) ∨
        (0x1B0 ≤ off.toNat ∧ off.toNat ≤ 0x3FC) ∨ 0xE00 ≤ off.toNat) ∧
    (regAt off ≠ .reserved → (regAt off).offset = off)

/-- R82: an access of 4 bytes at an aligned offset is performed; any other is a bus error. -/
def Obligations.OnlyAlignedWordAccessesArePerformed : Prop :=
  ∀ (s : State) (off : BitVec 12) (n : Nat) (v : Word),
    (n = 4 ∧ off.toNat % 4 = 0 →
      hostAccess off (.read n) s =
        .next { afterRead s (regAt off) with reply := .data (readValue s (regAt off)) } ∧
      hostAccess off (.write n v) s = .next { writeReg s (regAt off) v with reply := .ack }) ∧
    (n ≠ 4 ∨ off.toNat % 4 ≠ 0 →
      hostAccess off (.read n) s = .fault (.busError off) ∧
      hostAccess off (.write n v) s = .fault (.busError off))

/-- R147, R167, R146: in a sound state a read returns any value exactly for a register that the command in
flight writes, or a table entry during a generation; every other read returns the register's value and
leaves the block as it was. -/
def Obligations.ReadsAreOpenOnlyInTheWriteSet : Prop :=
  ∀ (s : State) (off : BitVec 12), Sound s → off.toNat % 4 = 0 →
    ((∃ c i, s.cur = some c ∧ decode c = .ok i ∧ writes i (regAt off) = true) ∨
        (s.gen = true ∧ (regAt off).isTable = true) →
      ∃ v, memRead off 4 s = .next { s with reply := .data v, draws := s.draws + 1 } ∧
        ((regAt off).isTable = true → v.toNat < 256)) ∧
    (¬((∃ c i, s.cur = some c ∧ decode c = .ok i ∧ writes i (regAt off) = true) ∨
        (s.gen = true ∧ (regAt off).isTable = true)) →
      memRead off 4 s = .next { s with reply := .data (regValue s (regAt off)) })

/-- R32, R33, R35, R43 to R55: the value of every register of the window, which a read returns in every state
where it is not open; and the registers in no write set are never open to a free value, with something in
flight or not (R147). Which reads are open is `Obligations.ReadsAreOpenOnlyInTheWriteSet`; T is Table 44-1. -/
def Obligations.PackedRegistersReadAsTheRulesSay : Prop :=
  ∀ s : State,
    (∀ r, readsOpen s r = false →
      memRead r.offset 4 s = .next { s with reply := .data (regValue s r) }) ∧
    (∀ r, neverWritten r = true → readsOpen s r = false) ∧
    regValue s .id = 0xAE550703#32 ∧
    (regValue s .ctrl).toNat = s.doneIe.toNat + 2 * s.errIe.toNat ∧
    (regValue s .status).toNat = s.busy.toNat + 2 * s.done.toNat + 4 * s.err.toNat + 8 * s.tready.toNat +
      16 * s.rkv.toNat + 32 * s.dvalid.toNat + 256 * s.errCode.toNat ∧
    regValue s .cmd = 0#32 ∧
    regValue s .opa = s.opa ∧ regValue s .opb = s.opb ∧ regValue s .res = s.res ∧
    (∀ j : Fin 4, regValue s (.key j) = s.key[j] ∧ regValue s (.st j) = s.st[j] ∧
      regValue s (.h j) = s.h[j]) ∧
    (∀ k : Fin 16, regValue s (.m k) = s.m[k]) ∧
    (∀ i : Fin 44, regValue s (.rk i) = s.rk[i]) ∧
    (regValue s .cntLo).toNat + 2 ^ 32 * (regValue s .cntHi).toNat = s.cnt.toNat ∧
    (∀ x : Byte, regValue s (.sbox x) = (entry s.sbox x).setWidth 32 ∧
      regValue s (.isbox x) = (entry s.isbox x).setWidth 32) ∧
    (∀ j : Fin 64, tTable[j.val]? = some (regValue s (.t j)).toNat ∧ (regValue s (.s j)).toNat = md5S j) ∧
    regValue s .reserved = 0#32

/-- R42: a host write to STATUS, at any value of BUSY. -/
def Obligations.StatusWriteClearsDoneAndErr : Prop :=
  ∀ (s : State) (v : Word),
    memWrite 0x008#12 4 v s = .next { s with
      done := if v.toNat / 2 % 2 = 1 then false else s.done
      err := if v.toNat / 4 % 2 = 1 then false else s.err
      errCode := if v.toNat / 4 % 2 = 1 then 0#4 else s.errCode
      reply := .ack }

/-- R38: the first error is kept, with its code (the numbers are those of R281), until a STATUS write with
bit 2 = 1 clears both. -/
def Obligations.FirstErrorIsKept : Prop :=
  (∀ (s : State) (e : CmdError),
    raiseCmdError e s =
      { s with err := true, errCode := if s.err = true then s.errCode else BitVec.ofNat 4 (codeNumber e) }) ∧
  ∀ (s : State) (v : Word), ∃ t, memWrite 0x008#12 4 v s = .next t ∧
    (v.toNat / 4 % 2 = 1 → t.err = false ∧ t.errCode = 0#4) ∧
    (v.toNat / 4 % 2 = 0 → t.err = s.err ∧ t.errCode = s.errCode)

/-- R34: CTRL bit 31 is the hardware reset; without it only the enables change. -/
def Obligations.SoftResetIsTheHardwareReset : Prop :=
  ∀ (s : State) (v : Word),
    (ctrlWord s).getLsbD 31 = false ∧
    (v.getLsbD 31 = true → ∃ t, takeEvent .reset s = .next t ∧
      memWrite 0x004#12 4 v s = .next { t with reply := .ack } ∧
      ctrlWord t = 0#32 ∧ t.cur = none ∧ t.busy = true ∧ t.gen = true ∧ t.tready = false) ∧
    (v.getLsbD 31 = false →
      memWrite 0x004#12 4 v s =
        .next { s with doneIe := v.getLsbD 0, errIe := v.getLsbD 1, reply := .ack })

/-- R84: the offsets 0x000, 0x018, 0x01C and 0x080 to 0xFFC are the read-only registers and the reserved
offsets; a write there changes no state at any value of BUSY. The read-only fields of CTRL and STATUS
keep their values; ERRCODE is one of them, which bit 2 = 1 clears by R42. -/
def Obligations.ReadOnlyRegistersIgnoreWrites : Prop :=
  ∀ (s : State) (off : BitVec 12) (v : Word), off.toNat % 4 = 0 →
    (off.toNat = 0x000 ∨ off.toNat = 0x018 ∨ off.toNat = 0x01C ∨ 0x080 ≤ off.toNat →
      memWrite off 4 v s = .next { s with reply := .ack }) ∧
    (off = 0x004#12 → v.getLsbD 31 = false → ∃ t, memWrite off 4 v s = .next t ∧
      ∀ k, 2 ≤ k → k ≤ 30 → (ctrlWord t).getLsbD k = (ctrlWord s).getLsbD k) ∧
    (off = 0x008#12 → ∃ t, memWrite off 4 v s = .next t ∧
      t.busy = s.busy ∧ t.tready = s.tready ∧ t.rkv = s.rkv ∧ t.dvalid = s.dvalid ∧
      (v.getLsbD 2 = false → t.errCode = s.errCode) ∧
      ∀ k, k = 6 ∨ k = 7 ∨ (12 ≤ k ∧ k ≤ 31) → (statusWord t).getLsbD k = (statusWord s).getLsbD k)

/-- R44, R46, R47, R48: while BUSY = 0 a write to an input register stores the value there, a KEY write
clears RKV, and every other register of the window but STATUS reads as before. -/
def Obligations.IdleWriteStoresTheInput : Prop :=
  ∀ (s : State) (off : BitVec 12) (v : Word), s.busy = false → off.toNat % 4 = 0 →
    0x010 ≤ off.toNat → off.toNat < 0x080 → off ≠ 0x018#12 → off ≠ 0x01C#12 →
    ∃ t, memWrite off 4 v s = .next t ∧ regValue t (regAt off) = v ∧
      (∀ r, r ≠ regAt off → r ≠ .status → regValue t r = regValue s r) ∧
      t.rkv = (if 0x020 ≤ off.toNat ∧ off.toNat < 0x030 then false else s.rkv) ∧
      { t with opa := s.opa, opb := s.opb, key := s.key, st := s.st, m := s.m, rkv := s.rkv } =
        { s with reply := .ack }

/-- R148: what a host write does while BUSY = 1. -/
def Obligations.BusyWritesRaiseEbusy : Prop :=
  ∀ (s : State) (off : BitVec 12) (v : Word), s.busy = true → off.toNat % 4 = 0 →
    (off = 0x00C#12 ∨ off = 0x010#12 ∨ off = 0x014#12 ∨ (0x020 ≤ off.toNat ∧ off.toNat < 0x080) →
      memWrite off 4 v s = .next { s with
        err := true, errCode := if s.err = true then s.errCode else 1#4, reply := .ack }) ∧
    (off = 0x004#12 → memWrite off 4 v s = .next { writeCtrl v s with reply := .ack }) ∧
    (off = 0x008#12 → memWrite off 4 v s = .next { writeStatus v s with reply := .ack }) ∧
    (off.toNat = 0x000 ∨ off.toNat = 0x018 ∨ off.toNat = 0x01C ∨ 0x080 ≤ off.toNat →
      memWrite off 4 v s = .next { s with reply := .ack })

/-- R141, R143: the checks of a write to CMD in order, the acceptance, and that nothing else puts a command
in flight. -/
def Obligations.CmdWriteChecksThenAccepts : Prop :=
  (∀ (s : State) (c : Word),
    memWrite 0x00C#12 4 c s = .next { (
      if s.busy = true then raiseCmdError .ebusy s
      else match decode c with
        | .error e => raiseCmdError e s
        | .ok i =>
          if (∃ r, i = .addrk r) ∧ s.rkv = false then raiseCmdError .enork s
          else { s with
            cur := some c, busy := true, done := false
            tready := if i = .sboxgen then false else s.tready
            gen := if i = .sboxgen then true else s.gen } : State) with reply := .ack }) ∧
  (∀ (s t : State) (off : BitVec 12) (a : HostAccess) (c : Word),
    hostAccess off a s = .next t → t.cur = some c →
      s.cur = some c ∨ (off = 0x00C#12 ∧ a = .write 4 c)) ∧
  ∀ (s t : State) (c : Word), coreTurn s = .next t → t.cur = some c → s.cur = some c

/-- R37: DONE is cleared at acceptance, set at completion, cleared by a STATUS write with bit 1 = 1, left by
one with bit 1 = 0 and by the completion of the reset-time generation, and 1 after a clear and a completion
in one cycle. The last three clauses say that nothing else sets it: no host access, no reset, and no turn of the
core but the completion of a command. -/
def Obligations.DoneFollowsTheLastCommand : Prop :=
  (∀ (s : State) (c : Word) (i : Instr), (accept c i s).done = false) ∧
  (∀ (s t : State) (i : Instr), exec i s = .next t → t.done = true) ∧
  (∀ (s : State) (v : Word), ∃ t, memWrite 0x008#12 4 v s = .next t ∧
    t.done = if v.getLsbD 1 = true then false else s.done) ∧
  (∀ s : State, s.busy = true → s.cur = none → s.gen = true →
    ∃ t, coreStep s = .next t ∧ t.done = s.done) ∧
  (∀ (s : State) (v : Word) (rest : List Event), Sound s → (∃ c, s.cur = some c) →
    s.inputs = wr .status v :: .complete :: rest → ∃ t, core.run 2 s = .next t ∧ t.done = true) ∧
  (∀ (s t : State) (off : BitVec 12) (a : HostAccess),
    hostAccess off a s = .next t → t.done = true → s.done = true) ∧
  (∀ s t : State, takeEvent .reset s = .next t → t.done = false) ∧
  ∀ s t : State, coreTurn s = .next t → t.done = true →
    s.done = true ∨ (s.busy = true ∧ ∃ c i, s.cur = some c ∧ decode c = .ok i ∧ exec i s = .next t)

/-- R286: the interrupt output as a function of the bits a host reads in STATUS and CTRL, and its fall at the
clear, at the acceptance and at reset. The clause about the route is the model's choice, not the rule's: that
`P_IRQ` is one record and that no other route is asserted (log entry 8, DESIGN CHOICE). -/
def Obligations.InterruptFollowsDoneAndErr : Prop :=
  ∀ s : State,
    (irq s = true ↔ ((statusWord s).getLsbD 1 = true ∧ (ctrlWord s).getLsbD 0 = true) ∨
      ((statusWord s).getLsbD 2 = true ∧ (ctrlWord s).getLsbD 1 = true)) ∧
    (∀ route, irqAt route s = true ↔ route = Config.pIrq ∧ irq s = true) ∧
    irq (writeStatus 0x00000006#32 s) = false ∧
    (∀ c i, s.err = false → irq (accept c i s) = false) ∧
    irq (resetBlock s) = false

/-! ## The step -/

/-- R145: a step runs the command in flight, when the environment lets it complete or has nothing to do. -/
def Obligations.StepRunsTheCommandInFlight : Prop :=
  ∀ (s : State) (c : Word) (i : Instr), s.busy = true → s.cur = some c → decode c = .ok i →
    (s.inputs = [] → step s = exec i s) ∧
    ∀ rest, s.inputs = .complete :: rest → step s = exec i { s with inputs := rest }

/-- R141, R145: a command written to CMD in an idle block, where no check stops it, is in flight after one
step and has its effect after the next, on the registers as they were at the write. The events are
taken from the model's list (log entry 2). -/
def Obligations.IssuedCommandRunsAtCompletion : Prop :=
  ∀ (s : State) (i : Instr) (rest : List Event), s.busy = false → i.wellFormed = true →
    (∀ r, i = .addrk r → s.rkv = true) → s.inputs = x i ++ rest →
    core.run 2 s = exec i { s with
      cur := some (encode i), busy := true, done := false, reply := .ack, inputs := rest
      tready := if i = .sboxgen then false else s.tready
      gen := if i = .sboxgen then true else s.gen }

/-- R24, R80, R145, R310: what a step does for each thing the environment may do next, and with nothing
left. The model's choices in it: the list of events (log entry 2, DESIGN CHOICE); that an access at a bus address
outside the window changes nothing here (log entry 8, DESIGN CHOICE); that the core's turn with BUSY = 0 changes
nothing (log entry 11, DEDUCED); that the model's reply, draws and events outlast a reset (log entries 1, 2
and 5). A reset leaves SBOX and ISBOX open here, as R311 does. -/
def Obligations.StepTakesTheOldestEvent : Prop :=
  ∀ (s : State) (rest : List Event),
    (s.inputs = [] → s.busy = false → step s = .next s) ∧
    (∀ off a, s.inputs = .host off a :: rest → step s = hostAccess off a { s with inputs := rest }) ∧
    (∀ (off : BitVec 12) a, s.inputs = .bus (Config.pBase + off.toNat) a :: rest →
      step s = hostAccess off a { s with inputs := rest }) ∧
    (∀ addr a, addr < Config.pBase ∨ Config.pBase + 0xFFF < addr → s.inputs = .bus addr a :: rest →
      step s = .next { s with inputs := rest }) ∧
    (s.inputs = .complete :: rest → s.busy = false → step s = .next { s with inputs := rest }) ∧
    (s.inputs = .reset :: rest →
      ∃ sbox isbox, step s = .next { State.reset with
        sbox := sbox, isbox := isbox, reply := s.reply, draws := s.draws, inputs := rest })

/-- R145, R142, R150: every legal command completes from every state: BUSY 0, DONE 1, nothing in flight,
and no error raised; and NOP does nothing else. -/
def Obligations.EveryCommandCompletes : Prop :=
  (∀ (i : Instr) (s : State), i.wellFormed = true →
    ∃ t, exec i s = .next t ∧ t.busy = false ∧ t.done = true ∧ t.cur = none ∧ t.err = s.err ∧
      t.errCode = s.errCode) ∧
  ∀ s : State, exec .nop s = .next (completed s)

/-- R146: a completion changes the command's write set, BUSY, DONE and CUR, and nothing else. -/
def Obligations.CommandsChangeOnlyTheirWriteSet : Prop :=
  ∀ (i : Instr) (s t : State), exec i s = .next t → changesOnlyWriteSet i s t

/-- R147 rests on the same sets: a register of the window (STATUS aside) that `writes` does not list for a
command reads as before after it. -/
def Obligations.UnlistedRegistersReadAsBefore : Prop :=
  ∀ (i : Instr) (s t : State) (r : Reg), exec i s = .next t → writes i r = false → r ≠ .status →
    regValue t r = regValue s r

/-- R61: the AES commands neither read nor write the MD5 state, and the MD5 commands neither read nor write
the AES state. -/
def Obligations.AesAndMd5ShareNoState : Prop :=
  ∀ (i : Instr) (s t : State), exec i s = .next t →
    (isMd5 i = false → ∀ m h cnt dvalid,
      exec i { s with m := m, h := h, cnt := cnt, dvalid := dvalid } =
        .next { t with m := m, h := h, cnt := cnt, dvalid := dvalid }) ∧
    (isMd5 i = true → ∀ key st rk sbox isbox rkv,
      exec i { s with key := key, st := st, rk := rk, sbox := sbox, isbox := isbox, rkv := rkv } =
        .next { t with key := key, st := st, rk := rk, sbox := sbox, isbox := isbox, rkv := rkv })

/-- R149: no command reads RES. -/
def Obligations.NoCommandReadsRes : Prop :=
  ∀ (i : Instr) (s t : State) (v : Word), exec i s = .next t →
    exec i { s with res := v } = .next (if isScalar i = true then t else { t with res := v })

/-! ## The finite field -/

/-- R160, R161: RES gets the byte that differs from the carry-less product of the low bytes of OPA and OPB
by a multiple of x^8+x^4+x^3+x+1. -/
def Obligations.GfmulIsThePolynomialProduct : Prop :=
  ∀ s : State, ∃ p : Byte, exec .gfmul s = .next { completed s with res := p.setWidth 32 } ∧
    ∃ q : Byte, clmul ((s.opa.setWidth 8).setWidth 16) (s.opb.setWidth 8) =
      clmul 0x11B#16 q ^^^ p.setWidth 16

/-- R160, R163: the laws the definition of the product gives, and that `inv` is its unique inverse. -/
def Obligations.GfmulFieldLaws : Prop :=
  (∀ a b, gfmul a b = gfmul b a) ∧
  (∀ a b c, gfmul (gfmul a b) c = gfmul a (gfmul b c)) ∧
  (∀ a b c, gfmul a (b ^^^ c) = gfmul a b ^^^ gfmul a c) ∧
  (∀ a, gfmul a 0x00#8 = 0x00#8 ∧ gfmul a 0x01#8 = a ∧ gfmul a 0x02#8 = xtime a) ∧
  inv 0x00#8 = 0x00#8 ∧ ∀ a b, a ≠ 0x00#8 → (gfmul a b = 0x01#8 ↔ b = inv a)

/-- R163, R39: in a sound state with TREADY = 1, SBOX[x] is the affine transform of the inverse of x (of 0
for x = 0) and ISBOX maps it back. -/
def Obligations.ReadyTablesHoldTheAffineInverse : Prop :=
  ∀ (s : State) (x y : Byte), Sound s → s.tready = true →
    (gfmul x y = 0x01#8 ∨ (x = 0x00#8 ∧ y = 0x00#8)) →
    entry s.sbox x = affineShifts y ∧ entry s.isbox (affineShifts y) = x

/-- R169, which the spec marks as its own inference from R163 and Tables 41-1 and 41-2: SBOX and ISBOX, once
ready, are mutually inverse permutations with the fixed entries of the rule, and SBOX has no fixed point
and no opposite fixed point. -/
def Obligations.ReadyTablesArePermutations : Prop :=
  ∀ s : State, Sound s → s.tready = true →
    Function.Bijective (entry s.sbox) ∧ Function.Bijective (entry s.isbox) ∧
    (∀ x, entry s.isbox (entry s.sbox x) = x ∧ entry s.sbox (entry s.isbox x) = x) ∧
    entry s.sbox 0x00#8 = 0x63#8 ∧ entry s.isbox 0x63#8 = 0x00#8 ∧
    ∀ x, entry s.sbox x ≠ x ∧ entry s.sbox x ≠ x ^^^ 0xFF#8

/-- R162, R165: SBOX and INVSBOX look up the low byte of OPA; with ready tables INVSBOX on the result of
SBOX gives the byte back. -/
def Obligations.TableCommandsLookUpTheLowByte : Prop :=
  ∀ s : State,
    exec .sbox s = .next { completed s with res := (entry s.sbox (s.opa.setWidth 8)).setWidth 32 } ∧
    exec .invsbox s = .next { completed s with res := (entry s.isbox (s.opa.setWidth 8)).setWidth 32 } ∧
    (Sound s → s.tready = true → ∀ t, exec .sbox s = .next t →
      ∃ u, exec .invsbox { t with opa := t.res } = .next u ∧ u.res = (s.opa.setWidth 8).setWidth 32)

/-- R164: from an idle sound state `x sboxgen` changes nothing but DONE (and the model's last reply and
script): the tables, RK, ST and RKV are as before, and TREADY is 0 only in between. The events are
taken from the model's list (log entry 2). -/
def Obligations.SboxgenRegeneratesTheSameTables : Prop :=
  ∀ (s : State) (rest : List Event), Sound s → s.busy = false → s.inputs = x .sboxgen ++ rest →
    (∃ t, step s = .next t ∧ t.tready = false ∧ t.gen = true) ∧
    core.run 2 s = .next { s with done := true, reply := .ack, inputs := rest }

/-- R166, R310, R313: from any state a reset and then the core's step leave the block ready: STATUS reads
0x00000008, the tables are generated, DONE is not set, the interrupt output is 0, and every other register
is at its reset value. The events are
taken from the model's list (log entry 2). -/
def Obligations.ResetGenerationLeavesTheBlockReady : Prop :=
  ∀ (s : State) (rest : List Event), s.inputs = .reset :: .complete :: rest →
    core.run 2 s = .next { State.reset with
      sbox := genSbox, isbox := genIsbox, tready := true, gen := false, busy := false
      reply := s.reply, draws := s.draws, inputs := rest } ∧
    ∀ t, core.run 2 s = .next t → statusWord t = 0x00000008#32 ∧ irq t = false

/-! ## The key schedule -/

/-- R180: ROTWORD rotates the bytes of OPA one place to the left. -/
def Obligations.RotwordRotatesTheBytes : Prop :=
  ∀ s : State, exec .rotword s = .next { completed s with
    res := beword (bebyte s.opa 1) (bebyte s.opa 2) (bebyte s.opa 3) (bebyte s.opa 0) }

/-- R181: SUBWORD puts each byte of OPA through SBOX, and commutes with RotWord. -/
def Obligations.SubwordActsOnEachByte : Prop :=
  ∀ s : State, ∃ v, exec .subword s = .next { completed s with res := v } ∧
    (∀ i : Fin 4, bebyte v i = entry s.sbox (bebyte s.opa i)) ∧
    ∃ t, exec .subword { s with opa := rotl32 s.opa 8 } = .next t ∧ t.res = rotl32 v 8

/-- R182: RCON R puts Table 42-1's byte in the high position of RES; a word with R in 10..15 is not
executed but raises ERANGE. -/
def Obligations.RconGivesTheRoundConstants : Prop :=
  ∀ (r : BitVec 4) (s : State),
    (∀ h : r.toNat < 10,
      exec (.rcon r) s = .next { completed s with res := rcTable[r.toNat].setWidth 32 <<< 24 }) ∧
    (10 ≤ r.toNat → s.busy = false →
      memWrite 0x00C#12 4 (encode (.rcon r)) s = .next { raiseCmdError .erange s with reply := .ack })

/-- R183: the 44 words satisfy the rule's recurrence. -/
def Obligations.KeyExpansionFollowsTheRecurrence : Prop :=
  ∀ (sbox : Vector Byte 256) (k : Vector Word 4),
    let w := keyExpansion sbox k
    (∀ i : Fin 4, w[i.val]'(by omega) = k[i]) ∧
    ∀ (i : Nat) (h4 : 4 ≤ i) (h : i < 44),
      w[i] = if i % 4 = 0 then
          w[i - 4] ^^^ subBytesOf sbox (rotWord w[i - 1]) ^^^ ((rc (i / 4 - 1)).setWidth 32 <<< 24)
        else w[i - 4] ^^^ w[i - 1]

/-- R184: KEYEXP stores the expansion of KEY, whose first words are the key, and sets RKV. -/
def Obligations.KeyexpStoresTheSchedule : Prop :=
  ∀ s : State, ∃ t, exec .keyexp s = .next t ∧
    t = { completed s with rk := keyExpansion s.sbox s.key, rkv := true } ∧
    (∀ j : Fin 4, t.rk[j.val]'(by omega) = s.key[j]) ∧
    ∃ u, exec .keyexp t = .next u ∧ u.rk = t.rk

/-- R40, R46, R312: ADDRK is refused with ENORK after a KEY write, and accepted once a schedule has been
made. -/
def Obligations.KeyWriteInvalidatesTheRoundKeys : Prop :=
  ∀ (s : State) (j : Fin 4) (v : Word) (r : BitVec 4), s.busy = false → s.err = false → r.toNat < 11 →
    ∃ t, writeReg s (.key j) v = t ∧ t.rkv = false ∧ t.rk = s.rk ∧
      writeReg t .cmd (encode (.addrk r)) = { t with err := true, errCode := 5#4 } ∧
      ∃ u, exec .keyexp t = .next u ∧ u.rkv = true ∧
        (writeReg u .cmd (encode (.addrk r))).cur = some (encode (.addrk r))

/-! ## The AES rounds -/

/-- R201: ADDRK R XORs the words of round key R into ST, and twice it changes nothing. -/
def Obligations.AddrkXorsTheRoundKey : Prop :=
  ∀ (r : BitVec 4) (s : State) (hr : r.toNat < 11), ∃ t, exec (.addrk r) s = .next t ∧
    t = { completed s with st := t.st } ∧
    (∀ j : Fin 4, t.st[j] = s.st[j] ^^^ s.rk[4 * r.toNat + j.val]) ∧
    ∃ u, exec (.addrk r) t = .next u ∧ u.st = s.st

/-- R202, R203, R213: SUBBYTES and INVSUBBYTES act on each of the sixteen lanes alone, and with ready
tables the second undoes the first. -/
def Obligations.SubBytesActsOnEachLane : Prop :=
  ∀ s : State, ∃ t u, exec .subbytes s = .next t ∧ exec .invsubbytes s = .next u ∧
    t = { completed s with st := t.st } ∧ u = { completed s with st := u.st } ∧
    (∀ i j, mat t.st i j = entry s.sbox (mat s.st i j)) ∧
    (∀ i j, mat u.st i j = entry s.isbox (mat s.st i j)) ∧
    (Sound s → s.tready = true → ∃ v, exec .invsubbytes t = .next v ∧ v.st = s.st)

/-- R204, R205: SHIFTROWS rotates row i left by i, INVSHIFTROWS right by i, and either undoes the other. -/
def Obligations.ShiftRowsRotatesTheRows : Prop :=
  ∀ s : State, ∃ t u, exec .shiftrows s = .next t ∧ exec .invshiftrows s = .next u ∧
    t = { completed s with st := t.st } ∧ u = { completed s with st := u.st } ∧
    (∀ i j : Fin 4, mat t.st i j = mat s.st i (Fin.ofNat 4 (j.val + i.val))) ∧
    (∀ i j : Fin 4, mat u.st i j = mat s.st i (Fin.ofNat 4 (j.val + 4 - i.val))) ∧
    (∃ v, exec .invshiftrows t = .next v ∧ v.st = s.st) ∧
    ∃ v, exec .shiftrows u = .next v ∧ v.st = s.st

/-- R206, R207: MIXCOLUMNS and INVMIXCOLUMNS multiply every column by the matrices of the rules. -/
def Obligations.MixColumnsIsTheMatrixProduct : Prop :=
  ∀ s : State, ∃ t u, exec .mixcolumns s = .next t ∧ exec .invmixcolumns s = .next u ∧
    t = { completed s with st := t.st } ∧ u = { completed s with st := u.st } ∧
    ∀ r j : Fin 4, mat t.st r j = matrixTimes mixMatrix (fun k => mat s.st k j) r ∧
      mat u.st r j = matrixTimes invMixMatrix (fun k => mat s.st k j) r

/-- R207, R212: "MixColumns/InverseMixColumns are mutual inverses", for every column. -/
def Obligations.InvMixColumnsUndoesMixColumns : Prop :=
  ∀ c : Word, invMixCol (mixCol c) = c ∧ mixCol (invMixCol c) = c

/-- R208, R209: what ENCRYPT and DECRYPT leave, and that neither reads RK or RKV. -/
def Obligations.BlockCommandsExpandTheKeyThemselves : Prop :=
  ∀ s : State,
    exec .encrypt s = .next { completed s with
      rk := keyExpansion s.sbox s.key, rkv := true
      st := cipher s.sbox (keyExpansion s.sbox s.key) s.st } ∧
    exec .decrypt s = .next { completed s with
      rk := keyExpansion s.sbox s.key, rkv := true
      st := invCipher s.isbox (keyExpansion s.sbox s.key) s.st } ∧
    ∀ rk rkv, exec .encrypt { s with rk := rk, rkv := rkv } = exec .encrypt s ∧
      exec .decrypt { s with rk := rk, rkv := rkv } = exec .decrypt s

/-- R212: "for all 128-bit keys K and all 128-bit blocks P, decrypt(encrypt(P, K), K) == P", and the other
way round. -/
def Obligations.DecryptUndoesEncrypt : Prop :=
  ∀ s : State, Sound s → s.tready = true →
    (∃ t u, exec .encrypt s = .next t ∧ exec .decrypt t = .next u ∧ u.st = s.st ∧ u.key = s.key) ∧
    ∃ t u, exec .decrypt s = .next t ∧ exec .encrypt t = .next u ∧ u.st = s.st ∧ u.key = s.key

/-- R122, R212: issued command by command, `aes.encrypt.steps` and `aes.decrypt.steps` leave the block
exactly as `x encrypt` and `x decrypt` do. The events are
taken from the model's list (log entry 2). -/
def Obligations.StepwiseCipherEqualsTheBlockCommand : Prop :=
  ∀ (s : State) (rest : List Event), s.busy = false →
    core.run (commands aesEncryptSteps).length { s with inputs := commands aesEncryptSteps ++ rest } =
      core.run 2 { s with inputs := x .encrypt ++ rest } ∧
    core.run (commands aesDecryptSteps).length { s with inputs := commands aesDecryptSteps ++ rest } =
      core.run 2 { s with inputs := x .decrypt ++ rest }

/-! ## MD5 -/

/-- R247, R248: what MD5INIT and MD5BLOCK leave. -/
def Obligations.Md5InitAndBlockResults : Prop :=
  ∀ s : State,
    exec .md5init s = .next { completed s with
      h := #v[0x67452301#32, 0xEFCDAB89#32, 0x98BADCFE#32, 0x10325476#32], cnt := 0#64, dvalid := false } ∧
    exec .md5block s = .next { completed s with
      h := compress s.h s.m, cnt := s.cnt + 64#64, dvalid := false }

/-- R245, R246: the compression with rotating register indices equals the one that renames the registers
after every step, with the sums of R246 at its end. -/
def Obligations.CompressionEqualsTheRenamedForm : Prop :=
  ∀ (h : Vector Word 4) (x : Vector Word 16),
    let v := (List.finRange 64).foldl (renamedStep x) ⟨h[0], h[1], h[2], h[3]⟩
    compress h x = #v[h[0] + v.a, h[1] + v.b, h[2] + v.c, h[3] + v.d]

/-- R241 to R245, R255: the round functions bit by bit, the constants T, the message indices, rotation amounts
and roles as the rules list them, and the digest's bytes. -/
def Obligations.Md5IndicesAndDigestAreAsListed : Prop :=
  (∀ h : Vector Word 4, (digest h).length = 16 ∧
    ∀ k i : Fin 4, (digest h)[4 * k.val + i.val]? = some (h[k].extractLsb' (8 * i.val) 8)) ∧
  ∀ j : Fin 64,
    (md5Index j.val).val = (if j.val < 16 then j.val else if j.val < 32 then (5 * j.val + 1) % 16
      else if j.val < 48 then (3 * j.val + 5) % 16 else (7 * j.val) % 16) ∧
    md5S j = (if j.val < 16 then [7, 12, 17, 22] else if j.val < 32 then [5, 9, 14, 20]
      else if j.val < 48 then [4, 11, 16, 23] else [6, 10, 15, 21]).getD (j.val % 4) 0 ∧
    4 ≤ md5S j ∧ md5S j ≤ 23 ∧
    (∀ (x y z : Word) (k : Fin 32), (md5Fn j.val x y z).getLsbD k.val =
      roundBit j.val (x.getLsbD k.val) (y.getLsbD k.val) (z.getLsbD k.val)) ∧
    tTable[j.val]? = some md5T[j].toNat ∧
    ∀ role, (md5Role role j).val = (role + 3 * j.val) % 4

/-- R249: the padding of a message. -/
def Obligations.PaddingIsTheStandardOne : Prop :=
  ∀ msg : List Byte, ∃ z,
    padMessage msg = msg ++ [0x80#8] ++ List.replicate z 0x00#8 ++
      (List.range 8).map (fun i => BitVec.ofNat 8 (8 * msg.length % 2 ^ 64 / 2 ^ (8 * i))) ∧
    (msg.length + 1 + z) % 64 = 56 ∧ (∀ z' < z, (msg.length + 1 + z') % 64 ≠ 56) ∧
    0 < (padMessage msg).length ∧ (padMessage msg).length % 64 = 0

/-- R253: how many blocks a message of N bytes is compressed in. -/
def Obligations.BlockCountFollowsTheLength : Prop :=
  ∀ msg : List Byte, (padMessage msg).length / 64 =
    if msg.length % 64 ≤ 55 then msg.length / 64 + 1 else msg.length / 64 + 2

/-- R251, R252: MD5FINAL L compresses one block for L up to 55 and two above, adds L to CNT, sets DVALID,
and does not look at the bytes of M at and beyond L. -/
def Obligations.Md5finalUsesOnlyTheTail : Prop :=
  ∀ (l : BitVec 6) (s : State),
    exec (.md5final l) s = .next { completed s with
      h := compressAll s.h (padWith (tailBytes s.m l) (s.cnt + l.setWidth 64))
      cnt := s.cnt + l.setWidth 64, dvalid := true } ∧
    (padWith (tailBytes s.m l) (s.cnt + l.setWidth 64)).length = (if l.toNat ≤ 55 then 64 else 128) ∧
    ∀ m' : Vector Word 16, (∀ k : Fin 64, k.val < l.toNat → messageByte m' k = messageByte s.m k) →
      ∃ t t', exec (.md5final l) s = .next t ∧ exec (.md5final l) { s with m := m' } = .next t' ∧
        t'.h = t.h ∧ t'.cnt = t.cnt

/-- R256: the host sequence for a message, run on an idle block, leaves in H the accumulators that
padding and compressing the whole message gives, with DVALID = 1 and the byte count in CNT. The events are
taken from the model's list (log entry 2). -/
def Obligations.Md5OfAMessageThroughTheInterface : Prop :=
  ∀ (s : State) (msg : List Byte) (tail : Vector Word 16), s.busy = false → holdsTail msg tail →
    s.inputs = md5Script msg tail →
    ∃ t, core.run s.inputs.length s = .next t ∧ t.h = md5Message msg ∧ t.dvalid = true ∧
      t.cnt = BitVec.ofNat 64 msg.length ∧ t.busy = false ∧ t.inputs = []

/-! ## Whole-machine rules -/

/-- R311, R312: the values the rule gives for reset, read through the window. SBOX and ISBOX are open until
TREADY = 1 and are not in this statement. -/
def Obligations.ResetValuesAreThoseOfTheRule : Prop :=
  let s := State.reset
  regValue s .ctrl = 0#32 ∧ regValue s .status = 0x00000001#32 ∧ regValue s .cmd = 0#32 ∧
  regValue s .opa = 0#32 ∧ regValue s .opb = 0#32 ∧ regValue s .res = 0#32 ∧
  (∀ j, regValue s (.key j) = 0#32 ∧ regValue s (.st j) = 0#32) ∧ (∀ k, regValue s (.m k) = 0#32) ∧
  regValue s (.h 0) = 0x67452301#32 ∧ regValue s (.h 1) = 0xEFCDAB89#32 ∧
  regValue s (.h 2) = 0x98BADCFE#32 ∧ regValue s (.h 3) = 0x10325476#32 ∧
  regValue s .cntLo = 0#32 ∧ regValue s .cntHi = 0#32 ∧ (∀ i, regValue s (.rk i) = 0#32) ∧
  s.cur = none ∧ s.gen = true ∧ irq s = false

/-- The invariant holds right after reset. -/
def Obligations.ResetMeetsTheInvariant : Prop := Sound State.reset

/-- R36 to R41: every step from every sound state leads to a sound state. -/
def Obligations.StepKeepsTheInvariant : Prop :=
  ∀ s t : State, Sound s → step s = .next t → Sound t

/-- R289, R332: "no event of the block is a stuck state": from a sound state whose environment makes no
malformed access, every run goes on. The events are
taken from the model's list (log entry 2). -/
def Obligations.SafeRunsNeverStop : Prop :=
  ∀ (s : State) (k : Nat), Safe s → ∃ t, core.run k s = .next t ∧ Safe t

/-- With no more events a sound block is idle after one step and stays so. The rules say that every completion
is eventually taken (R331, R332); that it is taken in the first step with no event left, and that an idle block
then stays as it is, are the model's (log entry 2, DESIGN CHOICE; log entry 11, DEDUCED). -/
def Obligations.QuietBlockBecomesIdle : Prop :=
  ∀ (s : State) (k : Nat), Sound s → s.inputs = [] →
    ∃ t, core.run (k + 1) s = .next t ∧ t.busy = false ∧ t.cur = none ∧ t.gen = false ∧ t.tready = true

/-- R93, R145, R310: every clock cycle, for any latencies, does to the block what the step does with the
events of `cycleScript` in their order: a reset alone; otherwise the host access first and the completion
second, the completion exactly when what was in flight has its latency over. Where the cycle stops, the
run stops in the same way. -/
def Obligations.CycleIsARunOfSteps : Prop :=
  ∀ (e : CycleInput) (c : Clocked),
    let es := cycleScript e c
    core.run es.length { c.block with inputs := es ++ c.block.inputs } =
      match cycle e c with
      | .next c' => .next c'.block
      | .fault r => .fault r
      | .refused r => .refused r

/-- R13, R332: what is in flight completes in the cycle its latency gives, and in no cycle before, when
nothing reaches the block meanwhile. -/
def Obligations.CompletionComesAfterTheLatency : Prop :=
  ∀ (s : State) (k : Nat), Sound s → s.busy = true →
    (k < latency s → ∃ c, cycles (List.replicate k quietCycle) (start s) = .next c ∧ c.block = s) ∧
    ∃ c, cycles (List.replicate (latency s) quietCycle) (start s) = .next c ∧ coreStep s = .next c.block ∧
      c.block.busy = false
end

