-- ==== Sys2Proof/Laws/State.lean ====
section
/-! SUPPORT. One simp lemma for each field under each named update of the state, so that no later proof
unfolds an update. -/

namespace Sys2Proof.Machine

/-! ## `raiseCmdError` -/

section
variable (e : CmdError) (s : State)

@[simp] theorem raiseCmdError_doneIe : (raiseCmdError e s).doneIe = s.doneIe := by unfold raiseCmdError; split <;> rfl
@[simp] theorem raiseCmdError_errIe : (raiseCmdError e s).errIe = s.errIe := by unfold raiseCmdError; split <;> rfl
@[simp] theorem raiseCmdError_busy : (raiseCmdError e s).busy = s.busy := by unfold raiseCmdError; split <;> rfl
@[simp] theorem raiseCmdError_done : (raiseCmdError e s).done = s.done := by unfold raiseCmdError; split <;> rfl
@[simp] theorem raiseCmdError_err : (raiseCmdError e s).err = true := by unfold raiseCmdError; split <;> simp_all
@[simp] theorem raiseCmdError_tready : (raiseCmdError e s).tready = s.tready := by unfold raiseCmdError; split <;> rfl
@[simp] theorem raiseCmdError_rkv : (raiseCmdError e s).rkv = s.rkv := by unfold raiseCmdError; split <;> rfl
@[simp] theorem raiseCmdError_dvalid : (raiseCmdError e s).dvalid = s.dvalid := by unfold raiseCmdError; split <;> rfl
@[simp] theorem raiseCmdError_errCode : (raiseCmdError e s).errCode = if s.err = true then s.errCode else e.code := by unfold raiseCmdError; split <;> rfl
@[simp] theorem raiseCmdError_opa : (raiseCmdError e s).opa = s.opa := by unfold raiseCmdError; split <;> rfl
@[simp] theorem raiseCmdError_opb : (raiseCmdError e s).opb = s.opb := by unfold raiseCmdError; split <;> rfl
@[simp] theorem raiseCmdError_res : (raiseCmdError e s).res = s.res := by unfold raiseCmdError; split <;> rfl
@[simp] theorem raiseCmdError_key : (raiseCmdError e s).key = s.key := by unfold raiseCmdError; split <;> rfl
@[simp] theorem raiseCmdError_st : (raiseCmdError e s).st = s.st := by unfold raiseCmdError; split <;> rfl
@[simp] theorem raiseCmdError_m : (raiseCmdError e s).m = s.m := by unfold raiseCmdError; split <;> rfl
@[simp] theorem raiseCmdError_h : (raiseCmdError e s).h = s.h := by unfold raiseCmdError; split <;> rfl
@[simp] theorem raiseCmdError_cnt : (raiseCmdError e s).cnt = s.cnt := by unfold raiseCmdError; split <;> rfl
@[simp] theorem raiseCmdError_rk : (raiseCmdError e s).rk = s.rk := by unfold raiseCmdError; split <;> rfl
@[simp] theorem raiseCmdError_sbox : (raiseCmdError e s).sbox = s.sbox := by unfold raiseCmdError; split <;> rfl
@[simp] theorem raiseCmdError_isbox : (raiseCmdError e s).isbox = s.isbox := by unfold raiseCmdError; split <;> rfl
@[simp] theorem raiseCmdError_cur : (raiseCmdError e s).cur = s.cur := by unfold raiseCmdError; split <;> rfl
@[simp] theorem raiseCmdError_gen : (raiseCmdError e s).gen = s.gen := by unfold raiseCmdError; split <;> rfl
@[simp] theorem raiseCmdError_reply : (raiseCmdError e s).reply = s.reply := by unfold raiseCmdError; split <;> rfl
@[simp] theorem raiseCmdError_draws : (raiseCmdError e s).draws = s.draws := by unfold raiseCmdError; split <;> rfl
@[simp] theorem raiseCmdError_inputs : (raiseCmdError e s).inputs = s.inputs := by unfold raiseCmdError; split <;> rfl

end

/-! ## `accept` -/

section
variable (c : Word) (i : Instr) (s : State)

@[simp] theorem accept_doneIe : (accept c i s).doneIe = s.doneIe := by unfold accept; split <;> rfl
@[simp] theorem accept_errIe : (accept c i s).errIe = s.errIe := by unfold accept; split <;> rfl
@[simp] theorem accept_busy : (accept c i s).busy = true := by unfold accept; split <;> rfl
@[simp] theorem accept_done : (accept c i s).done = false := by unfold accept; split <;> rfl
@[simp] theorem accept_err : (accept c i s).err = s.err := by unfold accept; split <;> rfl
@[simp] theorem accept_tready : (accept c i s).tready = if i = .sboxgen then false else s.tready := by unfold accept; split <;> rfl
@[simp] theorem accept_rkv : (accept c i s).rkv = s.rkv := by unfold accept; split <;> rfl
@[simp] theorem accept_dvalid : (accept c i s).dvalid = s.dvalid := by unfold accept; split <;> rfl
@[simp] theorem accept_errCode : (accept c i s).errCode = s.errCode := by unfold accept; split <;> rfl
@[simp] theorem accept_opa : (accept c i s).opa = s.opa := by unfold accept; split <;> rfl
@[simp] theorem accept_opb : (accept c i s).opb = s.opb := by unfold accept; split <;> rfl
@[simp] theorem accept_res : (accept c i s).res = s.res := by unfold accept; split <;> rfl
@[simp] theorem accept_key : (accept c i s).key = s.key := by unfold accept; split <;> rfl
@[simp] theorem accept_st : (accept c i s).st = s.st := by unfold accept; split <;> rfl
@[simp] theorem accept_m : (accept c i s).m = s.m := by unfold accept; split <;> rfl
@[simp] theorem accept_h : (accept c i s).h = s.h := by unfold accept; split <;> rfl
@[simp] theorem accept_cnt : (accept c i s).cnt = s.cnt := by unfold accept; split <;> rfl
@[simp] theorem accept_rk : (accept c i s).rk = s.rk := by unfold accept; split <;> rfl
@[simp] theorem accept_sbox : (accept c i s).sbox = s.sbox := by unfold accept; split <;> rfl
@[simp] theorem accept_isbox : (accept c i s).isbox = s.isbox := by unfold accept; split <;> rfl
@[simp] theorem accept_cur : (accept c i s).cur = some c := by unfold accept; split <;> rfl
@[simp] theorem accept_gen : (accept c i s).gen = if i = .sboxgen then true else s.gen := by unfold accept; split <;> rfl
@[simp] theorem accept_reply : (accept c i s).reply = s.reply := by unfold accept; split <;> rfl
@[simp] theorem accept_draws : (accept c i s).draws = s.draws := by unfold accept; split <;> rfl
@[simp] theorem accept_inputs : (accept c i s).inputs = s.inputs := by unfold accept; split <;> rfl

end

/-! ## `resetBlock` -/

section
variable (s : State)

@[simp] theorem resetBlock_doneIe : (resetBlock s).doneIe = State.reset.doneIe := rfl
@[simp] theorem resetBlock_errIe : (resetBlock s).errIe = State.reset.errIe := rfl
@[simp] theorem resetBlock_busy : (resetBlock s).busy = State.reset.busy := rfl
@[simp] theorem resetBlock_done : (resetBlock s).done = State.reset.done := rfl
@[simp] theorem resetBlock_err : (resetBlock s).err = State.reset.err := rfl
@[simp] theorem resetBlock_tready : (resetBlock s).tready = State.reset.tready := rfl
@[simp] theorem resetBlock_rkv : (resetBlock s).rkv = State.reset.rkv := rfl
@[simp] theorem resetBlock_dvalid : (resetBlock s).dvalid = State.reset.dvalid := rfl
@[simp] theorem resetBlock_errCode : (resetBlock s).errCode = State.reset.errCode := rfl
@[simp] theorem resetBlock_opa : (resetBlock s).opa = State.reset.opa := rfl
@[simp] theorem resetBlock_opb : (resetBlock s).opb = State.reset.opb := rfl
@[simp] theorem resetBlock_res : (resetBlock s).res = State.reset.res := rfl
@[simp] theorem resetBlock_key : (resetBlock s).key = State.reset.key := rfl
@[simp] theorem resetBlock_st : (resetBlock s).st = State.reset.st := rfl
@[simp] theorem resetBlock_m : (resetBlock s).m = State.reset.m := rfl
@[simp] theorem resetBlock_h : (resetBlock s).h = State.reset.h := rfl
@[simp] theorem resetBlock_cnt : (resetBlock s).cnt = State.reset.cnt := rfl
@[simp] theorem resetBlock_rk : (resetBlock s).rk = State.reset.rk := rfl
@[simp] theorem resetBlock_sbox : (resetBlock s).sbox = State.reset.sbox := rfl
@[simp] theorem resetBlock_isbox : (resetBlock s).isbox = State.reset.isbox := rfl
@[simp] theorem resetBlock_cur : (resetBlock s).cur = State.reset.cur := rfl
@[simp] theorem resetBlock_gen : (resetBlock s).gen = State.reset.gen := rfl
@[simp] theorem resetBlock_reply : (resetBlock s).reply = s.reply := rfl
@[simp] theorem resetBlock_draws : (resetBlock s).draws = s.draws := rfl
@[simp] theorem resetBlock_inputs : (resetBlock s).inputs = s.inputs := rfl

end

/-! ## `writeTables` -/

section
variable (s : State)

@[simp] theorem writeTables_doneIe : (writeTables s).doneIe = s.doneIe := rfl
@[simp] theorem writeTables_errIe : (writeTables s).errIe = s.errIe := rfl
@[simp] theorem writeTables_busy : (writeTables s).busy = s.busy := rfl
@[simp] theorem writeTables_done : (writeTables s).done = s.done := rfl
@[simp] theorem writeTables_err : (writeTables s).err = s.err := rfl
@[simp] theorem writeTables_tready : (writeTables s).tready = true := rfl
@[simp] theorem writeTables_rkv : (writeTables s).rkv = s.rkv := rfl
@[simp] theorem writeTables_dvalid : (writeTables s).dvalid = s.dvalid := rfl
@[simp] theorem writeTables_errCode : (writeTables s).errCode = s.errCode := rfl
@[simp] theorem writeTables_opa : (writeTables s).opa = s.opa := rfl
@[simp] theorem writeTables_opb : (writeTables s).opb = s.opb := rfl
@[simp] theorem writeTables_res : (writeTables s).res = s.res := rfl
@[simp] theorem writeTables_key : (writeTables s).key = s.key := rfl
@[simp] theorem writeTables_st : (writeTables s).st = s.st := rfl
@[simp] theorem writeTables_m : (writeTables s).m = s.m := rfl
@[simp] theorem writeTables_h : (writeTables s).h = s.h := rfl
@[simp] theorem writeTables_cnt : (writeTables s).cnt = s.cnt := rfl
@[simp] theorem writeTables_rk : (writeTables s).rk = s.rk := rfl
@[simp] theorem writeTables_sbox : (writeTables s).sbox = genSbox := rfl
@[simp] theorem writeTables_isbox : (writeTables s).isbox = genIsbox := rfl
@[simp] theorem writeTables_cur : (writeTables s).cur = s.cur := rfl
@[simp] theorem writeTables_gen : (writeTables s).gen = false := rfl
@[simp] theorem writeTables_reply : (writeTables s).reply = s.reply := rfl
@[simp] theorem writeTables_draws : (writeTables s).draws = s.draws := rfl
@[simp] theorem writeTables_inputs : (writeTables s).inputs = s.inputs := rfl

end

/-! ## `resetGenComplete` -/

section
variable (s : State)

@[simp] theorem resetGenComplete_doneIe : (resetGenComplete s).doneIe = s.doneIe := rfl
@[simp] theorem resetGenComplete_errIe : (resetGenComplete s).errIe = s.errIe := rfl
@[simp] theorem resetGenComplete_busy : (resetGenComplete s).busy = false := rfl
@[simp] theorem resetGenComplete_done : (resetGenComplete s).done = s.done := rfl
@[simp] theorem resetGenComplete_err : (resetGenComplete s).err = s.err := rfl
@[simp] theorem resetGenComplete_tready : (resetGenComplete s).tready = true := rfl
@[simp] theorem resetGenComplete_rkv : (resetGenComplete s).rkv = s.rkv := rfl
@[simp] theorem resetGenComplete_dvalid : (resetGenComplete s).dvalid = s.dvalid := rfl
@[simp] theorem resetGenComplete_errCode : (resetGenComplete s).errCode = s.errCode := rfl
@[simp] theorem resetGenComplete_opa : (resetGenComplete s).opa = s.opa := rfl
@[simp] theorem resetGenComplete_opb : (resetGenComplete s).opb = s.opb := rfl
@[simp] theorem resetGenComplete_res : (resetGenComplete s).res = s.res := rfl
@[simp] theorem resetGenComplete_key : (resetGenComplete s).key = s.key := rfl
@[simp] theorem resetGenComplete_st : (resetGenComplete s).st = s.st := rfl
@[simp] theorem resetGenComplete_m : (resetGenComplete s).m = s.m := rfl
@[simp] theorem resetGenComplete_h : (resetGenComplete s).h = s.h := rfl
@[simp] theorem resetGenComplete_cnt : (resetGenComplete s).cnt = s.cnt := rfl
@[simp] theorem resetGenComplete_rk : (resetGenComplete s).rk = s.rk := rfl
@[simp] theorem resetGenComplete_sbox : (resetGenComplete s).sbox = genSbox := rfl
@[simp] theorem resetGenComplete_isbox : (resetGenComplete s).isbox = genIsbox := rfl
@[simp] theorem resetGenComplete_cur : (resetGenComplete s).cur = s.cur := rfl
@[simp] theorem resetGenComplete_gen : (resetGenComplete s).gen = false := rfl
@[simp] theorem resetGenComplete_reply : (resetGenComplete s).reply = s.reply := rfl
@[simp] theorem resetGenComplete_draws : (resetGenComplete s).draws = s.draws := rfl
@[simp] theorem resetGenComplete_inputs : (resetGenComplete s).inputs = s.inputs := rfl

end

/-! ## `expandKey` -/

section
variable (s : State)

@[simp] theorem expandKey_doneIe : (expandKey s).doneIe = s.doneIe := rfl
@[simp] theorem expandKey_errIe : (expandKey s).errIe = s.errIe := rfl
@[simp] theorem expandKey_busy : (expandKey s).busy = s.busy := rfl
@[simp] theorem expandKey_done : (expandKey s).done = s.done := rfl
@[simp] theorem expandKey_err : (expandKey s).err = s.err := rfl
@[simp] theorem expandKey_tready : (expandKey s).tready = s.tready := rfl
@[simp] theorem expandKey_rkv : (expandKey s).rkv = true := rfl
@[simp] theorem expandKey_dvalid : (expandKey s).dvalid = s.dvalid := rfl
@[simp] theorem expandKey_errCode : (expandKey s).errCode = s.errCode := rfl
@[simp] theorem expandKey_opa : (expandKey s).opa = s.opa := rfl
@[simp] theorem expandKey_opb : (expandKey s).opb = s.opb := rfl
@[simp] theorem expandKey_res : (expandKey s).res = s.res := rfl
@[simp] theorem expandKey_key : (expandKey s).key = s.key := rfl
@[simp] theorem expandKey_st : (expandKey s).st = s.st := rfl
@[simp] theorem expandKey_m : (expandKey s).m = s.m := rfl
@[simp] theorem expandKey_h : (expandKey s).h = s.h := rfl
@[simp] theorem expandKey_cnt : (expandKey s).cnt = s.cnt := rfl
@[simp] theorem expandKey_rk : (expandKey s).rk = keyExpansion s.sbox s.key := rfl
@[simp] theorem expandKey_sbox : (expandKey s).sbox = s.sbox := rfl
@[simp] theorem expandKey_isbox : (expandKey s).isbox = s.isbox := rfl
@[simp] theorem expandKey_cur : (expandKey s).cur = s.cur := rfl
@[simp] theorem expandKey_gen : (expandKey s).gen = s.gen := rfl
@[simp] theorem expandKey_reply : (expandKey s).reply = s.reply := rfl
@[simp] theorem expandKey_draws : (expandKey s).draws = s.draws := rfl
@[simp] theorem expandKey_inputs : (expandKey s).inputs = s.inputs := rfl

end

/-! ## `writeStatus` -/

section
variable (v : Word) (s : State)

@[simp] theorem writeStatus_doneIe : (writeStatus v s).doneIe = s.doneIe := rfl
@[simp] theorem writeStatus_errIe : (writeStatus v s).errIe = s.errIe := rfl
@[simp] theorem writeStatus_busy : (writeStatus v s).busy = s.busy := rfl
@[simp] theorem writeStatus_done : (writeStatus v s).done = (s.done && !v.getLsbD 1) := rfl
@[simp] theorem writeStatus_err : (writeStatus v s).err = (s.err && !v.getLsbD 2) := rfl
@[simp] theorem writeStatus_tready : (writeStatus v s).tready = s.tready := rfl
@[simp] theorem writeStatus_rkv : (writeStatus v s).rkv = s.rkv := rfl
@[simp] theorem writeStatus_dvalid : (writeStatus v s).dvalid = s.dvalid := rfl
@[simp] theorem writeStatus_errCode : (writeStatus v s).errCode = if v.getLsbD 2 = true then 0#4 else s.errCode := rfl
@[simp] theorem writeStatus_opa : (writeStatus v s).opa = s.opa := rfl
@[simp] theorem writeStatus_opb : (writeStatus v s).opb = s.opb := rfl
@[simp] theorem writeStatus_res : (writeStatus v s).res = s.res := rfl
@[simp] theorem writeStatus_key : (writeStatus v s).key = s.key := rfl
@[simp] theorem writeStatus_st : (writeStatus v s).st = s.st := rfl
@[simp] theorem writeStatus_m : (writeStatus v s).m = s.m := rfl
@[simp] theorem writeStatus_h : (writeStatus v s).h = s.h := rfl
@[simp] theorem writeStatus_cnt : (writeStatus v s).cnt = s.cnt := rfl
@[simp] theorem writeStatus_rk : (writeStatus v s).rk = s.rk := rfl
@[simp] theorem writeStatus_sbox : (writeStatus v s).sbox = s.sbox := rfl
@[simp] theorem writeStatus_isbox : (writeStatus v s).isbox = s.isbox := rfl
@[simp] theorem writeStatus_cur : (writeStatus v s).cur = s.cur := rfl
@[simp] theorem writeStatus_gen : (writeStatus v s).gen = s.gen := rfl
@[simp] theorem writeStatus_reply : (writeStatus v s).reply = s.reply := rfl
@[simp] theorem writeStatus_draws : (writeStatus v s).draws = s.draws := rfl
@[simp] theorem writeStatus_inputs : (writeStatus v s).inputs = s.inputs := rfl

end

/-! ## `afterRead` -/

section
variable (r : Reg) (s : State)

@[simp] theorem afterRead_doneIe : (afterRead s r).doneIe = s.doneIe := by unfold afterRead; split <;> rfl
@[simp] theorem afterRead_errIe : (afterRead s r).errIe = s.errIe := by unfold afterRead; split <;> rfl
@[simp] theorem afterRead_busy : (afterRead s r).busy = s.busy := by unfold afterRead; split <;> rfl
@[simp] theorem afterRead_done : (afterRead s r).done = s.done := by unfold afterRead; split <;> rfl
@[simp] theorem afterRead_err : (afterRead s r).err = s.err := by unfold afterRead; split <;> rfl
@[simp] theorem afterRead_tready : (afterRead s r).tready = s.tready := by unfold afterRead; split <;> rfl
@[simp] theorem afterRead_rkv : (afterRead s r).rkv = s.rkv := by unfold afterRead; split <;> rfl
@[simp] theorem afterRead_dvalid : (afterRead s r).dvalid = s.dvalid := by unfold afterRead; split <;> rfl
@[simp] theorem afterRead_errCode : (afterRead s r).errCode = s.errCode := by unfold afterRead; split <;> rfl
@[simp] theorem afterRead_opa : (afterRead s r).opa = s.opa := by unfold afterRead; split <;> rfl
@[simp] theorem afterRead_opb : (afterRead s r).opb = s.opb := by unfold afterRead; split <;> rfl
@[simp] theorem afterRead_res : (afterRead s r).res = s.res := by unfold afterRead; split <;> rfl
@[simp] theorem afterRead_key : (afterRead s r).key = s.key := by unfold afterRead; split <;> rfl
@[simp] theorem afterRead_st : (afterRead s r).st = s.st := by unfold afterRead; split <;> rfl
@[simp] theorem afterRead_m : (afterRead s r).m = s.m := by unfold afterRead; split <;> rfl
@[simp] theorem afterRead_h : (afterRead s r).h = s.h := by unfold afterRead; split <;> rfl
@[simp] theorem afterRead_cnt : (afterRead s r).cnt = s.cnt := by unfold afterRead; split <;> rfl
@[simp] theorem afterRead_rk : (afterRead s r).rk = s.rk := by unfold afterRead; split <;> rfl
@[simp] theorem afterRead_sbox : (afterRead s r).sbox = s.sbox := by unfold afterRead; split <;> rfl
@[simp] theorem afterRead_isbox : (afterRead s r).isbox = s.isbox := by unfold afterRead; split <;> rfl
@[simp] theorem afterRead_cur : (afterRead s r).cur = s.cur := by unfold afterRead; split <;> rfl
@[simp] theorem afterRead_gen : (afterRead s r).gen = s.gen := by unfold afterRead; split <;> rfl
@[simp] theorem afterRead_reply : (afterRead s r).reply = s.reply := by unfold afterRead; split <;> rfl
@[simp] theorem afterRead_draws : (afterRead s r).draws = if readsOpen s r = true then s.draws + 1 else s.draws := by unfold afterRead; split <;> rfl
@[simp] theorem afterRead_inputs : (afterRead s r).inputs = s.inputs := by unfold afterRead; split <;> rfl

end

end Sys2Proof.Machine
end

