-- ==== Sys2Proof/Laws/Ops.lean ====
section
/-! SUPPORT. One lemma for each shared operation that says everything it can do; proofs cite these
instead of unfolding the operation. -/

namespace Sys2Proof.Machine

/-- Two equal next states. -/
theorem next_inj {s t : State} (h : (.next s : Result) = .next t) : t = s := by injection h with h; exact h.symm

/-! ## Completion -/

/-- The state every completion leaves, over the effect `s`. -/
theorem complete_eq (s : State) : complete s = .next { s with busy := false, done := true, cur := none } := rfl

theorem completeRes_eq (v : Word) (s : State) :
    completeRes v s = .next { s with res := v, busy := false, done := true, cur := none } := rfl

theorem completeSt_eq (v : Vector Word 4) (s : State) :
    completeSt v s = .next { s with st := v, busy := false, done := true, cur := none } := rfl

/-- RCON on a legal field. -/
theorem execRcon_legal {r : BitVec 4} (h : r ≤ 9#4) (s : State) :
    execRcon r s = completeRes (roundConstant r.toNat) s := if_pos h

/-- ADDRK on a legal field. -/
theorem execAddrk_legal {r : BitVec 4} (h : r.toNat < 11) (s : State) :
    execAddrk r s = completeSt (addRoundKey s.st s.rk ⟨r.toNat, h⟩) s := dif_pos h

/-- RCON answers a next state only on a legal field. -/
theorem execRcon_next {r : BitVec 4} {s t : State} (h : execRcon r s = .next t) :
    r ≤ 9#4 ∧ t = { s with res := roundConstant r.toNat, busy := false, done := true, cur := none } := by
  unfold execRcon at h
  split at h
  · exact ⟨by assumption, by simpa [completeRes_eq, eq_comm] using h⟩
  · cases h

/-- ADDRK answers a next state only on a legal field. -/
theorem execAddrk_next {r : BitVec 4} {s t : State} (h : execAddrk r s = .next t) :
    ∃ hr : r.toNat < 11, t = { s with
      st := addRoundKey s.st s.rk ⟨r.toNat, hr⟩, busy := false, done := true, cur := none } := by
  unfold execAddrk at h
  split at h
  · exact ⟨by assumption, by simpa [completeSt_eq, eq_comm] using h⟩
  · cases h

/-! ## Words and matrices -/

@[simp] theorem words4_get (f : Fin 4 → Word) (j : Fin 4) : (words4 f)[j] = f j := by
  match j with
  | 0 | 1 | 2 | 3 => rfl

/-- The four bytes of the word made of them. -/
theorem bebyte_beword (b0 b1 b2 b3 : Byte) :
    bebyte (beword b0 b1 b2 b3) 0 = b0 ∧ bebyte (beword b0 b1 b2 b3) 1 = b1 ∧
    bebyte (beword b0 b1 b2 b3) 2 = b2 ∧ bebyte (beword b0 b1 b2 b3) 3 = b3 := by
  refine ⟨?_, ?_, ?_, ?_⟩ <;>
  · ext i hi
    simp only [bebyte, beword, BitVec.getElem_extractLsb', BitVec.getLsbD_setWidth,
      BitVec.getLsbD_shiftLeft, BitVec.getLsbD_or]
    interval_cases i <;> simp

/-- The word made of the four bytes of a word. -/
theorem beword_bebyte (w : Word) : beword (bebyte w 0) (bebyte w 1) (bebyte w 2) (bebyte w 3) = w := by
  apply BitVec.eq_of_getLsbD_eq
  intro i hi
  simp only [bebyte, beword, BitVec.getLsbD_extractLsb', BitVec.getLsbD_setWidth,
    BitVec.getLsbD_shiftLeft, BitVec.getLsbD_or]
  interval_cases i <;> simp

/-- The matrix of the words of a matrix is that matrix. -/
@[simp] theorem mat_unmat (t : Fin 4 → Fin 4 → Byte) (i j : Fin 4) : mat (unmat t) i j = t i j := by
  have h := bebyte_beword (t 0 j) (t 1 j) (t 2 j) (t 3 j)
  simp only [mat, unmat, words4_get]
  match i with
  | 0 => exact h.1
  | 1 => exact h.2.1
  | 2 => exact h.2.2.1
  | 3 => exact h.2.2.2

/-- Two AES states with the same matrix are the same state. -/
theorem st_ext_mat {a b : Vector Word 4} (h : ∀ i j, mat a i j = mat b i j) : a = b := by
  have key : ∀ j : Fin 4, a[j] = b[j] := fun j => by
    rw [← beword_bebyte a[j], ← beword_bebyte b[j]]
    have h0 := h 0 j; have h1 := h 1 j; have h2 := h 2 j; have h3 := h 3 j
    simp only [mat] at h0 h1 h2 h3
    rw [h0, h1, h2, h3]
  exact Vector.ext fun i hi => key ⟨i, hi⟩

/-! ## The core and the step -/

/-- Everything the core's step can answer a next state from. -/
theorem coreStep_next {s t : State} (h : coreStep s = .next t) :
    (s.cur = none ∧ s.gen = true ∧ t = resetGenComplete s) ∨
    ∃ c i, s.cur = some c ∧ decode c = .ok i ∧ exec i s = .next t := by
  unfold coreStep at h
  split at h
  · rename_i hc
    split at h
    · exact .inl ⟨hc, by assumption, by simpa [eq_comm] using h⟩
    · cases h
  · rename_i c hc
    split at h
    · rename_i i hd
      exact .inr ⟨c, i, hc, hd, h⟩
    · cases h

/-- Everything the core's turn can answer a next state from. -/
theorem coreTurn_next {s t : State} (h : coreTurn s = .next t) :
    (s.busy = false ∧ t = s) ∨ (s.busy = true ∧ coreStep s = .next t) := by
  unfold coreTurn at h
  split at h
  · exact .inr ⟨by assumption, h⟩
  · exact .inl ⟨by simpa using ‹¬s.busy = true›, by simpa [eq_comm] using h⟩

/-- The core's step on a command in flight is that command's meaning. -/
theorem coreStep_command {s : State} {c : Word} {i : Instr} (hc : s.cur = some c) (hd : decode c = .ok i) :
    coreStep s = exec i s := by
  unfold coreStep; rw [hc]; simp only; rw [hd]

/-- The core's step on the reset-time generation. -/
theorem coreStep_generation {s : State} (hc : s.cur = none) (hg : s.gen = true) :
    coreStep s = .next (resetGenComplete s) := by
  unfold coreStep; rw [hc]; exact if_pos hg

/-! ## The port -/

theorem memRead_legal {off : BitVec 12} {n : Nat} (h : accessLegal off n = true) (s : State) :
    memRead off n s =
      .next { afterRead s (regAt off) with reply := .data (readValue s (regAt off)) } := if_pos h

theorem memWrite_legal {off : BitVec 12} {n : Nat} (h : accessLegal off n = true) (v : Word) (s : State) :
    memWrite off n v s = .next { writeReg s (regAt off) v with reply := .ack } := if_pos h

theorem memRead_illegal {off : BitVec 12} {n : Nat} (h : accessLegal off n = false) (s : State) :
    memRead off n s = .fault (.busError off) := if_neg (by simp [h])

theorem memWrite_illegal {off : BitVec 12} {n : Nat} (h : accessLegal off n = false) (v : Word) (s : State) :
    memWrite off n v s = .fault (.busError off) := if_neg (by simp [h])

/-- Everything a host access can answer a next state from. -/
theorem hostAccess_next {off : BitVec 12} {a : HostAccess} {s t : State} (h : hostAccess off a s = .next t) :
    (∃ n, a = .read n ∧ accessLegal off n = true ∧
      t = { afterRead s (regAt off) with reply := .data (readValue s (regAt off)) }) ∨
    ∃ n v, a = .write n v ∧ accessLegal off n = true ∧
      t = { writeReg s (regAt off) v with reply := .ack } := by
  cases a with
  | read n =>
    cases hl : accessLegal off n with
    | false => simp [hostAccess, memRead_illegal hl] at h
    | true => exact .inl ⟨n, rfl, hl, next_inj (((memRead_legal hl _).symm.trans h))⟩
  | write n v =>
    cases hl : accessLegal off n with
    | false => simp [hostAccess, memWrite_illegal hl] at h
    | true => exact .inr ⟨n, v, rfl, hl, next_inj (((memWrite_legal hl _ _).symm.trans h))⟩

/-- Everything a write to CMD can do. -/
theorem writeCmd_cases (c : Word) (s : State) :
    (∃ e, writeCmd c s = raiseCmdError e s) ∨
    ∃ i, s.busy = false ∧ decode c = .ok i ∧ (needsRoundKeys i = true → s.rkv = true) ∧
      writeCmd c s = accept c i s := by
  unfold writeCmd
  split
  · exact .inl ⟨_, rfl⟩
  · rename_i hb
    split
    · exact .inl ⟨_, rfl⟩
    · rename_i i hd
      split
      · exact .inl ⟨_, rfl⟩
      · rename_i hn
        refine .inr ⟨i, by simpa using hb, hd, fun hk => ?_, rfl⟩
        simpa [hk] using hn

/-- Everything a write to an input register can do. -/
theorem writeInput_cases (store s : State) :
    (s.busy = true ∧ writeInput store s = raiseCmdError .ebusy s) ∨
    (s.busy = false ∧ writeInput store s = store) := by
  unfold writeInput
  split
  · exact .inl ⟨by assumption, rfl⟩
  · exact .inr ⟨by simpa using ‹¬s.busy = true›, rfl⟩

/-- The events of the environment, and the core's turn when it has none. -/
theorem step_eq (s : State) :
    step s = match s.inputs with
      | [] => coreTurn s
      | e :: rest => takeEvent e { s with inputs := rest } := rfl

theorem step_nil {s : State} (h : s.inputs = []) : step s = coreTurn s := by simp [step, h]

theorem step_cons {s : State} {e : Event} {rest : List Event} (h : s.inputs = e :: rest) :
    step s = takeEvent e { s with inputs := rest } := by simp [step, h]

end Sys2Proof.Machine
end

