-- ==== Sys2Proof/Laws/PerInstr.lean ====
section
/-! SUPPORT. What holds of every command as syntax, one lemma for each constructor: where its word carries
its opcode, and that the opcode map has a row for it whose format admits the word. -/

namespace Sys2Proof.Laws.Encoding

open Sys2Proof

/-- The word of a command carries the command's opcode in bits 7:0, the opcode is assigned, and no bit of
the word is outside the row's format (spec/30_encoding.md R110 to R113, R115). -/
def Statement (i : Instr) : Prop :=
  opcodeField (encode i) = i.opcode ∧
    ∃ row, opcodeRow? i.opcode = some row ∧ encode i &&& ~~~row.format.usedMask = 0#32

theorem nop : Statement .nop := ⟨rfl, _, rfl, rfl⟩
theorem gfmul : Statement .gfmul := ⟨rfl, _, rfl, rfl⟩
theorem sbox : Statement .sbox := ⟨rfl, _, rfl, rfl⟩
theorem invsbox : Statement .invsbox := ⟨rfl, _, rfl, rfl⟩
theorem sboxgen : Statement .sboxgen := ⟨rfl, _, rfl, rfl⟩
theorem rotword : Statement .rotword := ⟨rfl, _, rfl, rfl⟩
theorem subword : Statement .subword := ⟨rfl, _, rfl, rfl⟩
theorem rcon (r : BitVec 4) : Statement (.rcon r) := ⟨by revert r; decide, _, rfl, by revert r; decide⟩
theorem keyexp : Statement .keyexp := ⟨rfl, _, rfl, rfl⟩
theorem addrk (r : BitVec 4) : Statement (.addrk r) := ⟨by revert r; decide, _, rfl, by revert r; decide⟩
theorem subbytes : Statement .subbytes := ⟨rfl, _, rfl, rfl⟩
theorem invsubbytes : Statement .invsubbytes := ⟨rfl, _, rfl, rfl⟩
theorem shiftrows : Statement .shiftrows := ⟨rfl, _, rfl, rfl⟩
theorem invshiftrows : Statement .invshiftrows := ⟨rfl, _, rfl, rfl⟩
theorem mixcolumns : Statement .mixcolumns := ⟨rfl, _, rfl, rfl⟩
theorem invmixcolumns : Statement .invmixcolumns := ⟨rfl, _, rfl, rfl⟩
theorem encrypt : Statement .encrypt := ⟨rfl, _, rfl, rfl⟩
theorem decrypt : Statement .decrypt := ⟨rfl, _, rfl, rfl⟩
theorem md5init : Statement .md5init := ⟨rfl, _, rfl, rfl⟩
theorem md5block : Statement .md5block := ⟨rfl, _, rfl, rfl⟩
theorem md5final (l : BitVec 6) : Statement (.md5final l) :=
  ⟨by revert l; decide, _, rfl, by revert l; decide⟩

end Sys2Proof.Laws.Encoding
end

