-- ==== Sys2Proof/Laws/Run.lean ====
section
/-! SUPPORT. Runs of the machine step by step, and what a host access leaves of the model's events and of
BUSY. A proof about a run cites these and unfolds neither `Host.Core.run` nor an access. -/

namespace Sys2Proof.Machine

open Sys2Proof

theorem run_zero (s : State) : core.run 0 s = .next s := rfl

theorem run_next {s t : State} (h : step s = .next t) (k : Nat) : core.run (k + 1) s = core.run k t := by
  have h' : core.step s = .next t := h
  simp only [Host.Core.run, h']

theorem run_fault {s : State} {f : Fault} (h : step s = .fault f) (k : Nat) :
    core.run (k + 1) s = .fault f := by
  have h' : core.step s = .fault f := h
  simp only [Host.Core.run, h']

theorem run_refused {s : State} {f : Refusal} (h : step s = .refused f) (k : Nat) :
    core.run (k + 1) s = .refused f := by
  have h' : core.step s = .refused f := h
  simp only [Host.Core.run, h']

theorem run_one (s : State) : core.run 1 s = step s := by
  cases h : step s with
  | next t => exact run_next h 0
  | fault f => exact run_fault h 0
  | refused f => exact run_refused h 0

/-- A register write leaves the environment's events. -/
@[simp] theorem writeReg_inputs (s : State) (r : Reg) (v : Word) : (writeReg s r v).inputs = s.inputs := by
  have input : ∀ u : State, u.inputs = s.inputs → (writeInput u s).inputs = s.inputs := by
    intro u hu
    rcases writeInput_cases u s with ⟨_, e⟩ | ⟨_, e⟩ <;> rw [e]
    · simp
    · exact hu
  cases r <;> simp only [writeReg] <;> try rfl
  case ctrl => unfold writeCtrl; split <;> rfl
  case cmd => rcases writeCmd_cases v s with ⟨e, he⟩ | ⟨i, _, _, _, he⟩ <;> rw [he] <;> simp
  all_goals exact input _ rfl

/-- A host access leaves the environment's events. -/
theorem hostAccess_inputs {off : BitVec 12} {a : HostAccess} {s t : State} (h : hostAccess off a s = .next t) :
    t.inputs = s.inputs := by
  rcases hostAccess_next h with ⟨n, _, _, rfl⟩ | ⟨n, v, _, _, rfl⟩
  · exact afterRead_inputs _ _
  · exact writeReg_inputs _ _ _

/-- A host access that is no soft reset leaves BUSY at 1. -/
theorem hostAccess_busy {off : BitVec 12} {a : HostAccess} {s t : State} (h : hostAccess off a s = .next t)
    (hs : softResets (some (off, a)) = false) (hb : s.busy = true) : t.busy = true := by
  rcases hostAccess_next h with ⟨n, _, _, rfl⟩ | ⟨n, v, rfl, hl, rfl⟩
  · exact (afterRead_busy _ _).trans hb
  · have input : ∀ u : State, (writeInput u s).busy = true := by intro u; simp [writeInput, hb]
    show (writeReg s (regAt off) v).busy = _
    simp only [softResets, hl] at hs
    cases hr : regAt off <;> simp only [writeReg] <;> try exact hb
    case ctrl =>
      simp only [hr, beq_self_eq_true, Bool.and_true, Bool.true_and] at hs
      rw [writeCtrl, hs, if_neg Bool.false_ne_true]
      exact hb
    case cmd => simp [writeCmd, hb]
    all_goals exact input _

end Sys2Proof.Machine
end

