-- ==== Sys2Proof/Laws/Tables.lean ====
section
/-! SUPPORT. Tables 41-1 and 41-2 of spec/41_finite_field.md, copied from the spec, and that the tables the
generation writes are these. -/

namespace Sys2Proof.Machine

/-- Table 41-1, rows 0 to 3. -/
def sboxRows0 : List Nat :=
  [ 0x63, 0x7C, 0x77, 0x7B, 0xF2, 0x6B, 0x6F, 0xC5, 0x30, 0x01, 0x67, 0x2B, 0xFE, 0xD7, 0xAB, 0x76,
    0xCA, 0x82, 0xC9, 0x7D, 0xFA, 0x59, 0x47, 0xF0, 0xAD, 0xD4, 0xA2, 0xAF, 0x9C, 0xA4, 0x72, 0xC0,
    0xB7, 0xFD, 0x93, 0x26, 0x36, 0x3F, 0xF7, 0xCC, 0x34, 0xA5, 0xE5, 0xF1, 0x71, 0xD8, 0x31, 0x15,
    0x04, 0xC7, 0x23, 0xC3, 0x18, 0x96, 0x05, 0x9A, 0x07, 0x12, 0x80, 0xE2, 0xEB, 0x27, 0xB2, 0x75 ]

/-- Table 41-1, rows 4 to 7. -/
def sboxRows1 : List Nat :=
  [ 0x09, 0x83, 0x2C, 0x1A, 0x1B, 0x6E, 0x5A, 0xA0, 0x52, 0x3B, 0xD6, 0xB3, 0x29, 0xE3, 0x2F, 0x84,
    0x53, 0xD1, 0x00, 0xED, 0x20, 0xFC, 0xB1, 0x5B, 0x6A, 0xCB, 0xBE, 0x39, 0x4A, 0x4C, 0x58, 0xCF,
    0xD0, 0xEF, 0xAA, 0xFB, 0x43, 0x4D, 0x33, 0x85, 0x45, 0xF9, 0x02, 0x7F, 0x50, 0x3C, 0x9F, 0xA8,
    0x51, 0xA3, 0x40, 0x8F, 0x92, 0x9D, 0x38, 0xF5, 0xBC, 0xB6, 0xDA, 0x21, 0x10, 0xFF, 0xF3, 0xD2 ]

/-- Table 41-1, rows 8 to B. -/
def sboxRows2 : List Nat :=
  [ 0xCD, 0x0C, 0x13, 0xEC, 0x5F, 0x97, 0x44, 0x17, 0xC4, 0xA7, 0x7E, 0x3D, 0x64, 0x5D, 0x19, 0x73,
    0x60, 0x81, 0x4F, 0xDC, 0x22, 0x2A, 0x90, 0x88, 0x46, 0xEE, 0xB8, 0x14, 0xDE, 0x5E, 0x0B, 0xDB,
    0xE0, 0x32, 0x3A, 0x0A, 0x49, 0x06, 0x24, 0x5C, 0xC2, 0xD3, 0xAC, 0x62, 0x91, 0x95, 0xE4, 0x79,
    0xE7, 0xC8, 0x37, 0x6D, 0x8D, 0xD5, 0x4E, 0xA9, 0x6C, 0x56, 0xF4, 0xEA, 0x65, 0x7A, 0xAE, 0x08 ]

/-- Table 41-1, rows C to F. -/
def sboxRows3 : List Nat :=
  [ 0xBA, 0x78, 0x25, 0x2E, 0x1C, 0xA6, 0xB4, 0xC6, 0xE8, 0xDD, 0x74, 0x1F, 0x4B, 0xBD, 0x8B, 0x8A,
    0x70, 0x3E, 0xB5, 0x66, 0x48, 0x03, 0xF6, 0x0E, 0x61, 0x35, 0x57, 0xB9, 0x86, 0xC1, 0x1D, 0x9E,
    0xE1, 0xF8, 0x98, 0x11, 0x69, 0xD9, 0x8E, 0x94, 0x9B, 0x1E, 0x87, 0xE9, 0xCE, 0x55, 0x28, 0xDF,
    0x8C, 0xA1, 0x89, 0x0D, 0xBF, 0xE6, 0x42, 0x68, 0x41, 0x99, 0x2D, 0x0F, 0xB0, 0x54, 0xBB, 0x16 ]

/-- Table 41-2, rows 0 to 3. -/
def isboxRows0 : List Nat :=
  [ 0x52, 0x09, 0x6A, 0xD5, 0x30, 0x36, 0xA5, 0x38, 0xBF, 0x40, 0xA3, 0x9E, 0x81, 0xF3, 0xD7, 0xFB,
    0x7C, 0xE3, 0x39, 0x82, 0x9B, 0x2F, 0xFF, 0x87, 0x34, 0x8E, 0x43, 0x44, 0xC4, 0xDE, 0xE9, 0xCB,
    0x54, 0x7B, 0x94, 0x32, 0xA6, 0xC2, 0x23, 0x3D, 0xEE, 0x4C, 0x95, 0x0B, 0x42, 0xFA, 0xC3, 0x4E,
    0x08, 0x2E, 0xA1, 0x66, 0x28, 0xD9, 0x24, 0xB2, 0x76, 0x5B, 0xA2, 0x49, 0x6D, 0x8B, 0xD1, 0x25 ]

/-- Table 41-2, rows 4 to 7. -/
def isboxRows1 : List Nat :=
  [ 0x72, 0xF8, 0xF6, 0x64, 0x86, 0x68, 0x98, 0x16, 0xD4, 0xA4, 0x5C, 0xCC, 0x5D, 0x65, 0xB6, 0x92,
    0x6C, 0x70, 0x48, 0x50, 0xFD, 0xED, 0xB9, 0xDA, 0x5E, 0x15, 0x46, 0x57, 0xA7, 0x8D, 0x9D, 0x84,
    0x90, 0xD8, 0xAB, 0x00, 0x8C, 0xBC, 0xD3, 0x0A, 0xF7, 0xE4, 0x58, 0x05, 0xB8, 0xB3, 0x45, 0x06,
    0xD0, 0x2C, 0x1E, 0x8F, 0xCA, 0x3F, 0x0F, 0x02, 0xC1, 0xAF, 0xBD, 0x03, 0x01, 0x13, 0x8A, 0x6B ]

/-- Table 41-2, rows 8 to B. -/
def isboxRows2 : List Nat :=
  [ 0x3A, 0x91, 0x11, 0x41, 0x4F, 0x67, 0xDC, 0xEA, 0x97, 0xF2, 0xCF, 0xCE, 0xF0, 0xB4, 0xE6, 0x73,
    0x96, 0xAC, 0x74, 0x22, 0xE7, 0xAD, 0x35, 0x85, 0xE2, 0xF9, 0x37, 0xE8, 0x1C, 0x75, 0xDF, 0x6E,
    0x47, 0xF1, 0x1A, 0x71, 0x1D, 0x29, 0xC5, 0x89, 0x6F, 0xB7, 0x62, 0x0E, 0xAA, 0x18, 0xBE, 0x1B,
    0xFC, 0x56, 0x3E, 0x4B, 0xC6, 0xD2, 0x79, 0x20, 0x9A, 0xDB, 0xC0, 0xFE, 0x78, 0xCD, 0x5A, 0xF4 ]

/-- Table 41-2, rows C to F. -/
def isboxRows3 : List Nat :=
  [ 0x1F, 0xDD, 0xA8, 0x33, 0x88, 0x07, 0xC7, 0x31, 0xB1, 0x12, 0x10, 0x59, 0x27, 0x80, 0xEC, 0x5F,
    0x60, 0x51, 0x7F, 0xA9, 0x19, 0xB5, 0x4A, 0x0D, 0x2D, 0xE5, 0x7A, 0x9F, 0x93, 0xC9, 0x9C, 0xEF,
    0xA0, 0xE0, 0x3B, 0x4D, 0xAE, 0x2A, 0xF5, 0xB0, 0xC8, 0xEB, 0xBB, 0x3C, 0x83, 0x53, 0x99, 0x61,
    0x17, 0x2B, 0x04, 0x7E, 0xBA, 0x77, 0xD6, 0x26, 0xE1, 0x69, 0x14, 0x63, 0x55, 0x21, 0x0C, 0x7D ]

/-- Table 41-1: SBOX[x] for x = 0, 1, ..., 255. -/
def tableSbox : Vector Byte 256 :=
  ⟨((sboxRows0 ++ sboxRows1 ++ sboxRows2 ++ sboxRows3).map (BitVec.ofNat 8)).toArray, by decide +kernel⟩

/-- Table 41-2: ISBOX[y] for y = 0, 1, ..., 255. -/
def tableIsbox : Vector Byte 256 :=
  ⟨((isboxRows0 ++ isboxRows1 ++ isboxRows2 ++ isboxRows3).map (BitVec.ofNat 8)).toArray, by decide +kernel⟩

/-- The list the generation makes SBOX of is Table 41-1. -/
theorem sbox_list_eq_table :
    (allBytes.map fun x => affine (inv x)) =
      (sboxRows0 ++ sboxRows1 ++ sboxRows2 ++ sboxRows3).map (BitVec.ofNat 8) := by
  decide +kernel

/-- Inverting Table 41-1 entry by entry gives Table 41-2. -/
theorem invertTable_table : (invertTable tableSbox).toList = tableIsbox.toList := by decide +kernel

/-- The generated SBOX is Table 41-1. -/
theorem genSbox_eq_table : genSbox = tableSbox :=
  Vector.toArray_inj.mp
    ((congrArg Vector.toArray genSbox.eq_1).trans (congrArg List.toArray sbox_list_eq_table))

/-- The generated ISBOX is Table 41-2. -/
theorem genIsbox_eq_table : genIsbox = tableIsbox := by
  unfold genIsbox
  exact (congrArg invertTable genSbox_eq_table).trans (Vector.toList_inj.mp invertTable_table)

/-! The generator walk of R168, which the rule calls informative: it makes the same table. -/

/-- p times 0x03 (R168). -/
def walkP (p : Byte) : Byte := p ^^^ xtime p

/-- q divided by 0x03 (R168). -/
def walkQ (q : Byte) : Byte :=
  let q := q ^^^ (q <<< 1)
  let q := q ^^^ (q <<< 2)
  let q := q ^^^ (q <<< 4)
  bif q.getLsbD 7 then q ^^^ 0x09#8 else q

/-- The pairs (p, q) after each of `n` iterations, from (p, q). -/
def walk : Nat → Byte → Byte → List (Byte × Byte)
  | 0, _, _ => []
  | n + 1, p, q => (walkP p, walkQ q) :: walk n (walkP p) (walkQ q)

/-- The first pairs that R168 lists. -/
theorem walk_first_pairs : walk 5 0x01#8 0x01#8 =
    [(0x03#8, 0xF6#8), (0x05#8, 0x52#8), (0x0F#8, 0xC7#8), (0x11#8, 0xB4#8), (0x33#8, 0x6C#8)] := by decide

/-- Over the 255 iterations p and q stay inverse, SBOX[p] is the affine transform of q, and p comes back to
0x01 at the last iteration and at none before. -/
theorem walk_makes_the_table :
    ((walk 255 0x01#8 0x01#8).all fun (p, q) => gfmul p q == 0x01#8 && entry tableSbox p == affine q) = true ∧
    (walk 255 0x01#8 0x01#8).findIdx? (fun (p, _) => p == 0x01#8) = some 254 := by decide +kernel

end Sys2Proof.Machine
end

