-- ==== Sys2Proof/Tests/Slice0.lean ====
section
/-! SUPPORT. The model's own tests. Every expected value is copied from spec/95_test_vectors.md or from the
example of the rule named; every word of a command is written out from spec/30_encoding.md. The
second half gives, for each statement with hypotheses, a state and operands that meet them. -/

namespace Sys2Proof.Tests

open Sys2Proof Sys2Proof.Machine Sys2Proof.Safety Sys2Proof.Claims

/-! ## States -/

/-- The block after reset and table generation (STATUS = 0x00000008), with Tables 41-1 and 41-2 in place. -/
def ready : State :=
  { State.reset with busy := false, tready := true, gen := false, sbox := tableSbox, isbox := tableIsbox }

/-- Words in the four key or state registers. -/
def four (a b c d : Word) : Vector Word 4 := #v[a, b, c, d]

/-- S0 of section 2.3, and the key of K11. -/
def s0 : Vector Word 4 := four 0x00010203#32 0x04050607#32 0x08090A0B#32 0x0C0D0E0F#32

/-- A command in flight in the ready block. -/
def inFlight (i : Instr) : State := accept (encode i) i ready

/-- The round keys of K11 that the ADDRK tests use: words 0 to 3, 4 to 7 and 40 to 43; the rest 0. -/
def someRoundKeys : Vector Word 44 :=
  ((List.finRange 4).foldl (fun w j => ((w.set (Fin.ofNat 44 j.val) s0[j]).set (Fin.ofNat 44 (4 + j.val))
    (four 0xD6AA74FD#32 0xD2AF72FA#32 0xDAA678F1#32 0xD6AB76FE#32)[j]).set (Fin.ofNat 44 (40 + j.val))
    (four 0x13111D7F#32 0xE3944A17#32 0xF307A78B#32 0x4D2B30C5#32)[j]) (Vector.replicate 44 0#32))

/-- The outcome is a next state with the property. -/
def nextIs (r : Result) (p : State → Bool) : Bool :=
  match r with
  | .next t => p t
  | .fault _ | .refused _ => false

/-- The outcome is this fault. -/
def faultIs (r : Result) (f : Fault) : Bool :=
  match r with
  | .fault g => g == f
  | .next _ | .refused _ => false

/-- A host write to the ready block, then STATUS. -/
def statusAfter (s : State) (off : BitVec 12) (v : Word) (w : Word) : Bool :=
  nextIs (memWrite off 4 v s) fun t => statusWord t == w

/-- A read returns this value. -/
def readIs (s : State) (off : BitVec 12) (v : Word) : Bool :=
  nextIs (memRead off 4 s) fun t => t.reply == .data v

/-! ## WellFormed and the decoder -/

theorem test_wellFormed_rcon : (Instr.rcon 9#4).wellFormed = true ∧ (Instr.rcon 10#4).wellFormed = false := by
  decide
theorem test_wellFormed_addrk :
    (Instr.addrk 10#4).wellFormed = true ∧ (Instr.addrk 11#4).wellFormed = false := by decide
theorem test_assemble_refuses : assemble? (.rcon 10#4) = none ∧ assemble? (.addrk 11#4) = none ∧
    assemble? (.md5final 63#6) = some 0x00003F22#32 := by decide

theorem test_decode_nop : decode 0b00000000000000000000000000000000#32 = .ok .nop := by decide
theorem test_decode_gfmul : decode 0b00000000000000000000000000000001#32 = .ok .gfmul := by decide
theorem test_decode_sbox : decode 0b00000000000000000000000000000010#32 = .ok .sbox := by decide
theorem test_decode_invsbox : decode 0b00000000000000000000000000000011#32 = .ok .invsbox := by decide
theorem test_decode_sboxgen : decode 0b00000000000000000000000000000100#32 = .ok .sboxgen := by decide
theorem test_decode_rotword : decode 0b00000000000000000000000000000101#32 = .ok .rotword := by decide
theorem test_decode_subword : decode 0b00000000000000000000000000000110#32 = .ok .subword := by decide
theorem test_decode_rcon : decode 0b00000000000000000000100100000111#32 = .ok (.rcon 9#4) := by decide
theorem test_decode_keyexp : decode 0b00000000000000000000000000010000#32 = .ok .keyexp := by decide
theorem test_decode_addrk : decode 0b00000000000000000000101000010001#32 = .ok (.addrk 10#4) := by decide
theorem test_decode_subbytes : decode 0b00000000000000000000000000010010#32 = .ok .subbytes := by decide
theorem test_decode_invsubbytes : decode 0b00000000000000000000000000010011#32 = .ok .invsubbytes := by decide
theorem test_decode_shiftrows : decode 0b00000000000000000000000000010100#32 = .ok .shiftrows := by decide
theorem test_decode_invshiftrows : decode 0b00000000000000000000000000010101#32 = .ok .invshiftrows := by
  decide
theorem test_decode_mixcolumns : decode 0b00000000000000000000000000010110#32 = .ok .mixcolumns := by decide
theorem test_decode_invmixcolumns : decode 0b00000000000000000000000000010111#32 = .ok .invmixcolumns := by
  decide
theorem test_decode_encrypt : decode 0b00000000000000000000000000011000#32 = .ok .encrypt := by decide
theorem test_decode_decrypt : decode 0b00000000000000000000000000011001#32 = .ok .decrypt := by decide
theorem test_decode_md5init : decode 0b00000000000000000000000000100000#32 = .ok .md5init := by decide
theorem test_decode_md5block : decode 0b00000000000000000000000000100001#32 = .ok .md5block := by decide
theorem test_decode_md5final : decode 0b00000000000000000011111100100010#32 = .ok (.md5final 63#6) := by decide

/-- E2, E9, E12, E14, E15. -/
theorem test_decode_reserved_bits :
    decode 0x00000100#32 = .error .ersvd ∧ decode 0x00010007#32 = .error .ersvd ∧
    decode 0x00001F11#32 = .error .ersvd ∧ decode 0x00004022#32 = .error .ersvd ∧
    decode 0x80000018#32 = .error .ersvd := by decide
/-- E3 to E6. -/
theorem test_decode_reserved_opcodes :
    decode 0x00000008#32 = .error .eopcode ∧ decode 0x0000FF08#32 = .error .eopcode ∧
    decode 0x00000023#32 = .error .eopcode ∧ decode 0xFFFFFFFF#32 = .error .eopcode := by decide
/-- E8, E11. -/
theorem test_decode_ranges :
    decode 0x00000A07#32 = .error .erange ∧ decode 0x00000B11#32 = .error .erange := by decide
/-- R116: the ends of the three ranges of assigned opcodes, and the first byte beyond each. -/
theorem test_decode_opcode_ranges :
    decode 0x0000000F#32 = .error .eopcode ∧ decode 0x0000001A#32 = .error .eopcode ∧
    decode 0x00000F07#32 = .error .erange ∧ decode 0x00001007#32 = .error .ersvd ∧
    decode 0x00000007#32 = .ok (.rcon 0#4) ∧ decode 0x00000022#32 = .ok (.md5final 0#6) := by decide

/-! ## The commands, one step each -/

/-- The example of R150: DONE is set and nothing else changes. -/
theorem test_nop : exec .nop (inFlight .nop) = .next { ready with done := true } := rfl
/-- F13: the high bits of the operands are ignored. -/
theorem test_gfmul_high_bits : nextIs (exec .gfmul { ready with opa := 0xFFFFFF57#32, opb := 0x12345683#32 })
    (·.res == 0x000000C1#32) = true := by decide +kernel
/-- F12: operands that are not symmetric. -/
theorem test_gfmul : nextIs (exec .gfmul { ready with opa := 0xAE#32, opb := 0x0D#32 })
    (·.res == 0x00000027#32) = true := by decide +kernel
/-- F25. -/
theorem test_sbox : nextIs (exec .sbox { ready with opa := 0xFFFFFF53#32 })
    (·.res == 0x000000ED#32) = true := by decide +kernel
/-- F30. -/
theorem test_invsbox : nextIs (exec .invsbox { ready with opa := 0x000000ED#32 })
    (·.res == 0x00000053#32) = true := by decide +kernel
/-- The example of R164. -/
theorem test_sboxgen : ∃ t, exec .sboxgen (inFlight .sboxgen) = .next t ∧ t.tready = true ∧ t.done = true ∧
    entry t.sbox 0x53#8 = 0xED#8 := by
  refine ⟨_, rfl, rfl, rfl, ?_⟩
  show entry genSbox 0x53#8 = 0xED#8
  rw [genSbox_eq_table]
  decide +kernel
/-- K1. -/
theorem test_rotword : nextIs (exec .rotword { ready with opa := 0x09CF4F3C#32 })
    (·.res == 0xCF4F3C09#32) = true := by decide +kernel
/-- K4. -/
theorem test_subword : nextIs (exec .subword { ready with opa := 0xCF4F3C09#32 })
    (·.res == 0x8A84EB01#32) = true := by decide +kernel
/-- K9. -/
theorem test_rcon : nextIs (exec (.rcon 9#4) ready) (·.res == 0x36000000#32) = true := by decide +kernel
/-- K8: the first value that the polynomial reduces. -/
theorem test_rcon_reduced : nextIs (exec (.rcon 8#4) ready) (·.res == 0x1B000000#32) = true := by decide +kernel
/-- K11: the first and the last expanded round key. -/
theorem test_keyexp : nextIs (exec .keyexp { ready with key := s0 }) (fun t => t.rkv && t.rk[4] == 0xD6AA74FD#32 &&
    t.rk[7] == 0xD6AB76FE#32 && t.rk[40] == 0x13111D7F#32 && t.rk[43] == 0x4D2B30C5#32) = true := by
  decide +kernel
/-- A2. -/
theorem test_addrk : nextIs (exec (.addrk 1#4) { ready with st := s0, rk := someRoundKeys, rkv := true })
    (·.st == four 0xD6AB76FE#32 0xD6AA74FD#32 0xD2AF72FA#32 0xDAA678F1#32) = true := by decide +kernel
/-- A3: the last round key. -/
theorem test_addrk_last : nextIs (exec (.addrk 10#4) { ready with st := s0, rk := someRoundKeys, rkv := true })
    (·.st == four 0x13101F7C#32 0xE7914C10#32 0xFB0EAD80#32 0x41263ECA#32) = true := by decide +kernel
/-- A4. -/
theorem test_subbytes : nextIs (exec .subbytes { ready with st := s0 })
    (·.st == four 0x637C777B#32 0xF26B6FC5#32 0x3001672B#32 0xFED7AB76#32) = true := by decide +kernel
/-- A5. -/
theorem test_invsubbytes : nextIs (exec .invsubbytes { ready with st := s0 })
    (·.st == four 0x52096AD5#32 0x3036A538#32 0xBF40A39E#32 0x81F3D7FB#32) = true := by decide +kernel
/-- A8. -/
theorem test_shiftrows : nextIs (exec .shiftrows { ready with st := s0 })
    (·.st == four 0x00050A0F#32 0x04090E03#32 0x080D0207#32 0x0C01060B#32) = true := by decide +kernel
/-- A9. -/
theorem test_invshiftrows : nextIs (exec .invshiftrows { ready with st := s0 })
    (·.st == four 0x000D0A07#32 0x04010E0B#32 0x0805020F#32 0x0C090603#32) = true := by decide +kernel
/-- A10. -/
theorem test_mixcolumns :
    nextIs (exec .mixcolumns { ready with st := four 0xDB135345#32 0xF20A225C#32 0xD4D4D4D5#32 0x2D26314C#32 })
      (·.st == four 0x8E4DA1BC#32 0x9FDC589D#32 0xD5D5D7D6#32 0x4D7EBDF8#32) = true := by decide +kernel
/-- A7. -/
theorem test_invmixcolumns : nextIs (exec .invmixcolumns { ready with st := s0 })
    (·.st == four 0x0A0F080D#32 0x0E0B0C09#32 0x02070005#32 0x06030401#32) = true := by decide +kernel
/-- V1, A14. -/
theorem test_encrypt :
    nextIs (exec .encrypt { ready with
      key := s0, st := four 0x00112233#32 0x44556677#32 0x8899AABB#32 0xCCDDEEFF#32 })
      (fun t => t.rkv && t.st == four 0x69C4E0D8#32 0x6A7B0430#32 0xD8CDB780#32 0x70B4C55A#32) = true := by
  decide +kernel
/-- A15. -/
theorem test_decrypt :
    nextIs (exec .decrypt { ready with
      key := s0, st := four 0x69C4E0D8#32 0x6A7B0430#32 0xD8CDB780#32 0x70B4C55A#32 })
      (fun t => t.rkv && t.st == four 0x00112233#32 0x44556677#32 0x8899AABB#32 0xCCDDEEFF#32) = true := by
  decide +kernel
/-- M5. -/
theorem test_md5init : nextIs (exec .md5init { ready with h := s0, cnt := 5#64, dvalid := true })
    (fun t => t.h == four 0x67452301#32 0xEFCDAB89#32 0x98BADCFE#32 0x10325476#32 && t.cnt == 0#64 && !t.dvalid)
      = true := by decide +kernel
/-- M6. -/
theorem test_md5block : nextIs (exec .md5block ready)
    (fun t => t.h == four 0x031F1DAC#32 0x6EA58ED0#32 0x1FAB67B7#32 0x74317791#32 && t.cnt == 64#64) = true := by
  decide +kernel
/-- M25: "abc" with a stray byte after it. -/
theorem test_md5final : nextIs (exec (.md5final 3#6) { ready with m := ready.m.set 0 0xFF636261#32 })
    (fun t => t.h == four 0x98500190#32 0xB04FD23C#32 0x7D3F96D6#32 0x727FE128#32 && t.cnt == 3#64 && t.dvalid)
      = true := by decide +kernel
/-- M14: a tail of 56 bytes takes two blocks. -/
theorem test_md5final_two_blocks :
    nextIs (exec (.md5final 56#6) { ready with m := Vector.replicate 16 0x61616161#32 })
      (fun t => t.h == four 0xC78A0C3B#32 0xB028F803#32 0x70196C4C#32 0x1872D106#32 && t.cnt == 56#64) = true := by
  decide +kernel
/-- V5: the digest bytes of "abc" (R255). -/
theorem test_digest : digest (four 0x98500190#32 0xB04FD23C#32 0x7D3F96D6#32 0x727FE128#32) =
    [0x90#8, 0x01#8, 0x50#8, 0x98#8, 0x3C#8, 0xD2#8, 0x4F#8, 0xB0#8, 0xD6#8, 0x96#8, 0x3F#8, 0x7D#8, 0x28#8,
      0xE1#8, 0x7F#8, 0x72#8] := by decide

/-! ## The port, errors, reset -/

/-- B1, B11. -/
theorem test_reset_reads : readIs State.reset 0x008#12 0x00000001#32 = true ∧
    readIs State.reset 0x080#12 0x67452301#32 = true := by decide +kernel
/-- B2: what the generation leaves. -/
theorem test_generation : ∃ t, coreStep State.reset = .next t ∧ statusWord t = 0x00000008#32 :=
  ⟨_, rfl, by decide⟩
/-- B3, B5, B7, B8, B9, B10. -/
theorem test_reads : readIs ready 0x000#12 0xAE550703#32 = true ∧ readIs ready 0x01C#12 0x00000000#32 = true ∧
    readIs ready 0x00C#12 0x00000000#32 = true ∧ readIs ready 0x54C#12 0x000000ED#32 = true ∧
    readIs ready 0xBB4#12 0x00000053#32 = true ∧ readIs ready 0xC00#12 0xD76AA478#32 = true ∧
    readIs ready 0xD00#12 0x00000007#32 = true ∧ readIs ready 0xDFC#12 0x00000015#32 = true := by decide +kernel
/-- B4. -/
theorem test_write_id : memWrite 0x000#12 4 0#32 ready = .next { ready with reply := .ack } := rfl
/-- B6. -/
theorem test_bus_errors : faultIs (memRead 0x002#12 4 ready) (.busError 0x002#12) = true ∧
    faultIs (memRead 0x008#12 2 ready) (.busError 0x008#12) = true := by decide
/-- B12. -/
theorem test_irq_done : irq { ready with doneIe := true, done := true } = true ∧
    irq (writeStatus 0x00000002#32 { ready with doneIe := true, done := true }) = false := by decide
/-- B14, and that the command in flight is dropped. -/
theorem test_soft_reset : nextIs (memWrite 0x004#12 4 0x80000003#32 { inFlight .encrypt with key := s0 })
    (fun t => ctrlWord t == 0#32 && statusWord t == 0x00000001#32 && t.key == four 0#32 0#32 0#32 0#32 &&
      t.cur == none) = true := by decide +kernel
/-- B15. -/
theorem test_ctrl_bits : nextIs (memWrite 0x004#12 4 0xFFFFFFFC#32 ready) (ctrlWord · == 0#32) = true := by decide
/-- B16, E17: an input register and CMD while BUSY = 1. -/
theorem test_busy_writes : statusAfter (inFlight .nop) 0x010#12 5#32 0x0000010D#32 = true ∧
    statusAfter (inFlight .nop) 0x00C#12 0x00000023#32 0x0000010D#32 = true ∧
    nextIs (memWrite 0x010#12 4 5#32 (inFlight .nop)) (·.opa == 0#32) = true := by decide
/-- The recording sequence of section 2.5: E16, E3, the clear, E8. -/
theorem test_error_recording : statusAfter ready 0x00C#12 0x00000011#32 0x0000050C#32 = true ∧
    statusAfter { ready with err := true, errCode := 5#4 } 0x00C#12 0x00000008#32 0x0000050C#32 = true ∧
    statusAfter { ready with err := true, errCode := 5#4 } 0x008#12 0x00000004#32 0x00000008#32 = true ∧
    statusAfter ready 0x00C#12 0x00000A07#32 0x0000040C#32 = true := by decide
/-- K14: a KEY write clears RKV even if it writes the same value. -/
theorem test_key_write : nextIs (memWrite 0x028#12 4 0x08090A0B#32 { ready with key := s0, rkv := true })
    (fun t => !t.rkv && t.key == s0) = true := by decide
/-- The host's question: the table word of a command is decoded, and the step after `withFetchWord` completes it. -/
theorem test_withFetchWord : decodeTableWord 16 0x0907 = some (.rcon 9#4) ∧
    nextIs (step (State.reset.withFetchWord 16 0x0907)) (·.res == 0x36000000#32) = true ∧
    nextIs (step (State.reset.withFetchWord 8 0x08)) (·.errCode == 2#4) = true := by decide +kernel

/-! ## Sound states -/

theorem ready_sound : Sound ready :=
  ⟨fun _ => ⟨rfl, rfl⟩, nofun, nofun, nofun, rfl, fun _ => ⟨genSbox_eq_table.symm, genIsbox_eq_table.symm⟩,
    nofun, nofun, by decide⟩

/-- SUBBYTES in flight. -/
theorem inFlight_subbytes_sound : Sound (inFlight .subbytes) := by
  refine ⟨nofun, nofun, ?_, ?_, rfl, fun _ => ⟨genSbox_eq_table.symm, genIsbox_eq_table.symm⟩, nofun,
    fun _ => rfl, by decide⟩
  · intro c h
    cases h
    exact ⟨.subbytes, by decide, by decide⟩
  · intro c r h hd
    cases h
    revert hd
    simp [show decode (encode .subbytes) = .ok .subbytes by decide]

theorem reset_sound : Sound State.reset :=
  ⟨nofun, fun _ _ => rfl, nofun, nofun, rfl, nofun, nofun, fun _ => rfl, by decide⟩

/-! ## Witnesses: the hypotheses of the statements can be met, at the ends of their ranges -/

/-- A state whose environment does these things next. -/
def withInputs (s : State) (es : List Event) : State := { s with inputs := es }

theorem witness_DecodeAgreesWithEncode :
    (Instr.addrk 10#4).wellFormed = true ∧ encode (.addrk 10#4) = 0x00000A11#32 ∧
    (Instr.md5final 63#6).wellFormed = true ∧ encode (.md5final 63#6) = 0x00003F22#32 := by decide

theorem witness_RegisterMapIsTable10 :
    regAt 0x018#12 = .res ∧ regAt 0x01C#12 = .reserved ∧ regAt 0x020#12 = .key 0 ∧ regAt 0x094#12 = .cntHi ∧
    regAt 0x098#12 = .reserved ∧ regAt 0x0FC#12 = .reserved ∧ regAt 0x100#12 = .rk 0 ∧ regAt 0x1AC#12 = .rk 43 ∧
    regAt 0x1B0#12 = .reserved ∧ regAt 0x3FC#12 = .reserved ∧ regAt 0x400#12 = .sbox 0#8 ∧
    regAt 0xBFC#12 = .isbox 255#8 ∧ regAt 0xDFC#12 = .s 63 ∧ regAt 0xE00#12 = .reserved ∧
    regAt 0xFFC#12 = .reserved := by decide

theorem witness_OnlyAlignedWordAccessesArePerformed :
    ((4 : Nat) = 4 ∧ (0xFFC#12).toNat % 4 = 0) ∧ (8 : Nat) ≠ 4 ∧ (0x001#12).toNat % 4 ≠ 0 ∧
      (0xFFF#12).toNat % 4 ≠ 0 := by decide

/-- The two open cases and the closed one, of a sound state and an aligned offset. -/
theorem witness_ReadsAreOpenOnlyInTheWriteSet :
    (Sound (inFlight .subbytes) ∧ (∃ c i, (inFlight .subbytes).cur = some c ∧ decode c = .ok i ∧
      writes i (regAt 0x030#12) = true)) ∧
    (Sound State.reset ∧ State.reset.gen = true ∧ (regAt 0x400#12).isTable = true ∧
      (regAt 0xBFC#12).isTable = true) ∧
    (Sound ready ∧ ready.cur = none ∧ ready.gen = false) :=
  ⟨⟨inFlight_subbytes_sound, 0x00000012#32, .subbytes, rfl, by decide, by decide⟩,
    ⟨reset_sound, rfl, by decide, by decide⟩, ready_sound, rfl, rfl⟩

/-- An open register aside: RES while SUBBYTES is in flight, and OPA, which is never open. -/
theorem witness_PackedRegistersReadAsTheRulesSay :
    readsOpen (inFlight .subbytes) .res = false ∧ readsOpen (inFlight .subbytes) (.st 3) = true ∧
    readsOpen ready (.sbox 255#8) = false ∧ neverWritten .opa = true ∧ neverWritten (.t 63) = true := by decide

theorem witness_FirstErrorIsKept :
    (0x00000004#32).toNat / 4 % 2 = 1 ∧ (0xFFFFFFFB#32).toNat / 4 % 2 = 0 := by decide

theorem witness_SoftResetIsTheHardwareReset :
    (0x80000000#32).getLsbD 31 = true ∧ (0x7FFFFFFF#32).getLsbD 31 = false := by decide

theorem witness_ReadOnlyRegistersIgnoreWrites :
    (0x018#12).toNat % 4 = 0 ∧ (0x018#12).toNat = 0x018 ∧ (0x080#12).toNat % 4 = 0 ∧ 0x080 ≤ (0x080#12).toNat ∧
    (0xFFC#12).toNat % 4 = 0 ∧ 0x080 ≤ (0xFFC#12).toNat ∧ (0x004#12).toNat % 4 = 0 ∧
    (0x00000003#32).getLsbD 31 = false ∧ (0x008#12).toNat % 4 = 0 ∧ (0xFFFFFFFB#32).getLsbD 2 = false := by
  decide

theorem witness_IdleWriteStoresTheInput : ready.busy = false ∧
    ∀ off ∈ [0x010#12, 0x014#12, 0x020#12, 0x02C#12, 0x030#12, 0x07C#12],
      off.toNat % 4 = 0 ∧ 0x010 ≤ off.toNat ∧ off.toNat < 0x080 ∧ off ≠ 0x018#12 ∧ off ≠ 0x01C#12 := by decide +kernel

theorem witness_BusyWritesRaiseEbusy : State.reset.busy = true ∧
    ∀ off ∈ [0x020#12, 0x07C#12], off.toNat % 4 = 0 ∧ 0x020 ≤ off.toNat ∧ off.toNat < 0x080 := by decide +kernel

/-- A write to CMD puts the command in flight; the core's turn, in a state no run reaches, keeps one. -/
theorem witness_CmdWriteChecksThenAccepts :
    (∃ t, hostAccess 0x00C#12 (.write 4 0x00000012#32) ready = .next t ∧ t.cur = some 0x00000012#32) ∧
    (∃ t, hostAccess 0x008#12 (.read 4) (inFlight .subbytes) = .next t ∧ t.cur = some 0x00000012#32) ∧
    ∃ t, coreTurn { ready with cur := some 0x00000012#32 } = .next t ∧ t.cur = some 0x00000012#32 :=
  ⟨⟨_, rfl, rfl⟩, ⟨_, rfl, rfl⟩, _, rfl, rfl⟩

theorem witness_DoneFollowsTheLastCommand :
    (∃ t, exec .nop (inFlight .nop) = .next t) ∧
    (State.reset.busy = true ∧ State.reset.cur = none ∧ State.reset.gen = true) ∧
    Sound (withInputs (inFlight .subbytes) [wr .status 0x00000002#32, .complete]) ∧
    (∃ c, (withInputs (inFlight .subbytes) [wr .status 0x00000002#32, .complete]).cur = some c) ∧
    (∃ t, hostAccess 0x008#12 (.read 4) { ready with done := true } = .next t ∧ t.done = true) ∧
    (∃ t, takeEvent .reset { ready with done := true } = .next t) ∧
    (∃ t, coreTurn (inFlight .subbytes) = .next t ∧ t.done = true) ∧
    (∃ t, coreTurn { ready with done := true } = .next t ∧ t.done = true) :=
  ⟨⟨_, rfl⟩, ⟨rfl, rfl, rfl⟩,
    have h := inFlight_subbytes_sound
    ⟨h.1, h.2, h.3, h.4, h.5, h.6, h.7, h.8, h.9⟩, ⟨0x00000012#32, rfl⟩, ⟨_, rfl, rfl⟩, ⟨_, rfl⟩,
    ⟨_, rfl, rfl⟩, _, rfl, rfl⟩

theorem witness_InterruptFollowsDoneAndErr : ready.err = false ∧ irqAt Config.pIrq { ready with done := true, doneIe := true } = true := by
  refine ⟨rfl, ?_⟩
  simp [irqAt, irq]

theorem witness_StepRunsTheCommandInFlight :
    (inFlight .subbytes).busy = true ∧ (inFlight .subbytes).cur = some 0x00000012#32 ∧
    decode 0x00000012#32 = .ok .subbytes ∧ (inFlight .subbytes).inputs = [] ∧
    (withInputs (inFlight .subbytes) [.complete]).inputs = .complete :: [] :=
  ⟨rfl, rfl, by decide, rfl, rfl⟩

theorem witness_IssuedCommandRunsAtCompletion :
    (withInputs { ready with rkv := true } (x (.addrk 10#4))).busy = false ∧
    (Instr.addrk 10#4).wellFormed = true ∧ (withInputs { ready with rkv := true } (x (.addrk 10#4))).rkv = true ∧
    (withInputs { ready with rkv := true } (x (.addrk 10#4))).inputs = x (.addrk 10#4) ++ [] := by decide

theorem witness_StepTakesTheOldestEvent :
    ready.inputs = [] ∧ ready.busy = false ∧
    (∃ (s : State) (off : BitVec 12) (a : HostAccess), s.inputs = .host off a :: []) ∧
    (∃ (s : State) (a : HostAccess), s.inputs = .bus (Config.pBase + (0xFFF#12).toNat) a :: []) ∧
    Config.pBase + 0xFFF < Config.pBase + 0x1000 ∧
    (∃ (s : State) (a : HostAccess), s.inputs = .bus (Config.pBase + 0x1000) a :: []) ∧
    (withInputs ready [.complete]).inputs = .complete :: [] ∧ (withInputs ready [.reset]).inputs = .reset :: [] :=
  ⟨rfl, rfl, ⟨withInputs ready [rd .id], _, _, rfl⟩, ⟨withInputs ready [.bus _ (.read 4)], _, rfl⟩, by omega,
    ⟨withInputs ready [.bus _ (.read 4)], _, rfl⟩, rfl, rfl⟩

theorem witness_EveryCommandCompletes :
    (Instr.rcon 9#4).wellFormed = true ∧ (Instr.addrk 10#4).wellFormed = true ∧
    (Instr.md5final 63#6).wellFormed = true ∧ Instr.nop.wellFormed = true := by decide

/-- For CommandsChangeOnlyTheirWriteSet, UnlistedRegistersReadAsBefore, AesAndMd5ShareNoState and
NoCommandReadsRes, whose hypothesis is `exec i s = .next t`: one such command of each write set, and a register outside it. -/
theorem witness_exec_next :
    (∃ t, exec .gfmul ready = .next t) ∧ (∃ t, exec .keyexp ready = .next t) ∧
    (∃ t, exec (.addrk 10#4) ready = .next t) ∧ (∃ t, exec .encrypt ready = .next t) ∧
    (∃ t, exec .sboxgen ready = .next t) ∧ (∃ t, exec (.md5final 63#6) ready = .next t) ∧
    writes .gfmul .opa = false ∧ writes (.addrk 10#4) (.rk 43) = false ∧ isMd5 .gfmul = false ∧
    isMd5 (.md5final 63#6) = true :=
  ⟨⟨_, rfl⟩, ⟨_, rfl⟩, ⟨_, rfl⟩, ⟨_, rfl⟩, ⟨_, rfl⟩, ⟨_, rfl⟩, by decide⟩

/-- Inverses in the field: the pair of F6, and the convention for 0. -/
theorem witness_GfmulFieldLaws : (0x53#8) ≠ 0x00#8 ∧ gfmul 0x53#8 0xCA#8 = 0x01#8 ∧ inv 0x53#8 = 0xCA#8 := by
  decide +kernel

/-- For ReadyTablesHoldTheAffineInverse (both clauses of its hypothesis), ReadyTablesArePermutations,
SubBytesActsOnEachLane and DecryptUndoesEncrypt. -/
theorem witness_ReadyTables : Sound ready ∧ ready.tready = true ∧
    (gfmul 0x53#8 0xCA#8 = 0x01#8 ∨ ((0x53#8) = 0x00#8 ∧ (0xCA#8) = 0x00#8)) ∧
    (gfmul 0x00#8 0x00#8 = 0x01#8 ∨ ((0x00#8) = 0x00#8 ∧ (0x00#8) = 0x00#8)) :=
  ⟨ready_sound, rfl, by decide +kernel, by decide +kernel⟩

theorem witness_TableCommandsLookUpTheLowByte :
    Sound ready ∧ ready.tready = true ∧ ∃ t, exec .sbox ready = .next t := ⟨ready_sound, rfl, _, rfl⟩

theorem witness_SboxgenRegeneratesTheSameTables :
    Sound (withInputs ready (x .sboxgen)) ∧ (withInputs ready (x .sboxgen)).busy = false ∧
    (withInputs ready (x .sboxgen)).inputs = x .sboxgen ++ [] :=
  have h := ready_sound
  ⟨⟨h.1, h.2, h.3, h.4, h.5, h.6, h.7, h.8, h.9⟩, rfl, rfl⟩

theorem witness_ResetGenerationLeavesTheBlockReady :
    (withInputs (inFlight .encrypt) [.reset, .complete]).inputs = .reset :: .complete :: [] ∧
    ∃ t, core.run 2 (withInputs (inFlight .encrypt) [.reset, .complete]) = .next t := ⟨rfl, _, rfl⟩

theorem witness_RconGivesTheRoundConstants :
    (9#4).toNat < 10 ∧ 10 ≤ (10#4).toNat ∧ 10 ≤ (15#4).toNat ∧ ready.busy = false := by decide

/-- The first index of each kind, and the last. -/
theorem witness_KeyExpansionFollowsTheRecurrence :
    (4 ≤ 4 ∧ 4 < 44 ∧ 4 % 4 = 0) ∧ (4 ≤ 5 ∧ 5 < 44 ∧ 5 % 4 ≠ 0) ∧ (4 ≤ 43 ∧ 43 < 44) := by decide

theorem witness_KeyWriteInvalidatesTheRoundKeys :
    ready.busy = false ∧ ready.err = false ∧ (10#4).toNat < 11 := by decide

theorem witness_AddrkXorsTheRoundKey : (0#4).toNat < 11 ∧ (10#4).toNat < 11 := by decide

theorem witness_StepwiseCipherEqualsTheBlockCommand : ready.busy = false ∧
    (commands aesEncryptSteps).length = 82 ∧ (commands aesDecryptSteps).length = 82 := by decide +kernel

/-- Two message blocks that agree on the first byte and on no other. -/
theorem witness_Md5finalUsesOnlyTheTail :
    ∀ k : Fin 64, (k.val < (1#6).toNat ↔ messageByte (Vector.replicate 16 0x01010101#32) k =
      messageByte ((Vector.replicate 16 0#32).set 0 0x00000001#32) k) := by decide +kernel

/-- The message "abc", with other bytes after the tail, and the message of 64 bytes, which has no tail. -/
theorem witness_Md5OfAMessageThroughTheInterface :
    holdsTail [0x61#8, 0x62#8, 0x63#8] (ready.m.set 0 0xFF636261#32) ∧
    holdsTail (List.replicate 64 0x61#8) ready.m ∧
    (withInputs ready (md5Script [0x61#8, 0x62#8, 0x63#8] (ready.m.set 0 0xFF636261#32))).busy = false ∧
    (md5Script (List.replicate 64 0x61#8) ready.m).length = 38 := by
  refine ⟨by unfold holdsTail; decide +kernel, by unfold holdsTail; decide +kernel, rfl, by decide⟩

theorem witness_StepKeepsTheInvariant :
    (Sound State.reset ∧ ∃ t, step State.reset = .next t) ∧
    (Sound (inFlight .subbytes) ∧ ∃ t, step (inFlight .subbytes) = .next t) ∧
    Sound ready ∧ ∃ t, step ready = .next t :=
  ⟨⟨reset_sound, _, rfl⟩, ⟨inFlight_subbytes_sound, _, rfl⟩, ready_sound, _, rfl⟩

theorem witness_SafeRunsNeverStop : Safe (withInputs ready [rd .status, cmd .encrypt, .complete, .reset]) := by
  have h := ready_sound
  exact ⟨⟨h.1, h.2, h.3, h.4, h.5, h.6, h.7, h.8, h.9⟩, by decide⟩

theorem witness_QuietBlockBecomesIdle :
    Sound (inFlight .subbytes) ∧ (inFlight .subbytes).inputs = [] ∧ Sound State.reset ∧ State.reset.inputs = [] :=
  ⟨inFlight_subbytes_sound, rfl, reset_sound, rfl⟩

/-- A cycle that accepts a command; one that reads STATUS and then completes; one in which a soft reset takes
the place of the completion; one in which the latency is not over. -/
theorem witness_CycleIsARunOfSteps :
    cycleScript ⟨false, some (0x00C#12, .write 4 0x00000012#32)⟩ ⟨ready, 0⟩ =
      [.host 0x00C#12 (.write 4 0x00000012#32)] ∧
    cycleScript ⟨false, some (0x008#12, .read 4)⟩ ⟨inFlight .subbytes, 1⟩ =
      [.host 0x008#12 (.read 4), .complete] ∧
    cycleScript ⟨false, some (0x004#12, .write 4 0x80000000#32)⟩ ⟨inFlight .subbytes, 1⟩ =
      [.host 0x004#12 (.write 4 0x80000000#32)] ∧
    cycleScript quietCycle ⟨inFlight .subbytes, 2⟩ = [] ∧
    (∃ c, cycle ⟨false, some (0x008#12, .read 4)⟩ ⟨inFlight .subbytes, 1⟩ = .next c ∧ c.block.busy = false) :=
  ⟨by decide, by decide, by decide, by decide, _, rfl, rfl⟩

theorem witness_CompletionComesAfterTheLatency :
    Sound (inFlight .subbytes) ∧ (inFlight .subbytes).busy = true ∧ 0 < latency (inFlight .subbytes) ∧
    Sound State.reset ∧ State.reset.busy = true ∧ 0 < latency State.reset := by
  refine ⟨inFlight_subbytes_sound, rfl, ?_, reset_sound, rfl, ?_⟩ <;> simp [latency, inFlight, accept, State.reset]

end Sys2Proof.Tests
end

section
/-! PROOFS, the step. What a step does for each event of the environment: where a bus address stands in the
window, and the core's turn in an idle block. -/

namespace Sys2Proof.Proofs

open Sys2Proof Sys2Proof.Machine

/-- R83: the bus address at offset `off` of the window is decoded to `off`. -/
theorem windowOffset?_inside (off : BitVec 12) : windowOffset? (Config.pBase + off.toNat) = some off := by
  have inside : Config.pBase ≤ Config.pBase + off.toNat ∧
      Config.pBase + off.toNat < Config.pBase + 4096 := by omega
  rw [windowOffset?, if_pos inside, Nat.add_sub_cancel_left, BitVec.ofNat_toNat, BitVec.setWidth_eq]

/-- R83: a bus address on either side of the window is not decoded. -/
theorem windowOffset?_outside {addr : Nat} (h : addr < Config.pBase ∨ Config.pBase + 0xFFF < addr) :
    windowOffset? addr = none := if_neg (by omega)

theorem busAccess_inside (off : BitVec 12) (a : HostAccess) (s : State) :
    busAccess (Config.pBase + off.toNat) a s = hostAccess off a s := by
  simp only [busAccess, windowOffset?_inside]

theorem busAccess_outside {addr : Nat} (h : addr < Config.pBase ∨ Config.pBase + 0xFFF < addr)
    (a : HostAccess) (s : State) : busAccess addr a s = .next s := by
  simp only [busAccess, windowOffset?_outside h]

/-- The core has no step while BUSY = 0 (R145). -/
theorem coreTurn_idle {s : State} (h : s.busy = false) : coreTurn s = .next s := if_neg (by simp [h])

/-- Settles O20: the step takes the oldest event, and each event has the effect its own rule gives it. -/
theorem stepTakesTheOldestEvent : Obligations.StepTakesTheOldestEvent := by
  intro s rest
  refine ⟨fun hin hb => ?noEvent, fun off a hin => ?host, fun off a hin => ?busInside,
    fun addr a hout hin => ?busOutside, fun hin hb => ?complete, fun hin => ?reset⟩
  case noEvent => exact (step_nil hin).trans (coreTurn_idle hb)
  case host => exact step_cons hin
  case busInside => exact (step_cons hin).trans (busAccess_inside off a _)
  case busOutside => exact (step_cons hin).trans (busAccess_outside hout a _)
  case complete => exact (step_cons hin).trans (coreTurn_idle hb)
  case reset => exact ⟨State.reset.sbox, State.reset.isbox, step_cons hin⟩

end Sys2Proof.Proofs
end

section
/-! PROOFS, completion. A command that the decoder yields completes, and so does whatever is in flight in a
sound busy block. -/

namespace Sys2Proof.Proofs

open Sys2Proof Sys2Proof.Machine Sys2Proof.Safety

/-- R116, step 3: the decoder yields commands with their fields in range only. -/
theorem wellFormed_of_decode {c : Word} {i : Instr} (h : decode c = .ok i) : i.wellFormed = true := by
  unfold decode at h
  split at h
  case h_1 => cases h
  case h_2 row _ =>
    split at h
    case isFalse => cases h
    case isTrue =>
      dsimp only at h
      split at h
      case isFalse => cases h
      case isTrue hw =>
        cases h
        exact hw

/-- R145: every legal command ends in the completion that all commands share, over some effect. -/
theorem exec_eq_complete {i : Instr} (h : i.wellFormed = true) (s : State) :
    ∃ effect, exec i s = complete effect := by
  cases i
  case rcon r =>
    have range : r ≤ 9#4 := by simpa [Instr.wellFormed] using h
    exact ⟨_, execRcon_legal range s⟩
  case addrk r =>
    have range : r.toNat < 11 := by
      have : r ≤ 10#4 := by simpa [Instr.wellFormed] using h
      bv_omega
    exact ⟨_, execAddrk_legal range s⟩
  all_goals exact ⟨_, rfl⟩

/-- In a sound busy block the core's step goes on and ends with BUSY 0 (R145, R166): what is in flight is the
table generation or a legal command. -/
theorem coreStep_of_sound {s : State} (hs : Sound s) (hb : s.busy = true) :
    ∃ t, coreStep s = .next t ∧ t.busy = false := by
  cases hc : s.cur with
  | none => exact ⟨_, coreStep_generation hc (hs.generationInFlight hb hc), resetGenComplete_busy s⟩
  | some c =>
    obtain ⟨i, hd, -⟩ := hs.command c hc
    obtain ⟨effect, he⟩ := exec_eq_complete (wellFormed_of_decode hd) s
    exact ⟨_, ((coreStep_command hc hd).trans he).trans (complete_eq effect), rfl⟩

end Sys2Proof.Proofs
end

section
/-! PROOFS, timing. Cycles in which nothing reaches the block: they count the latency down and then take the
core's step. -/

namespace Sys2Proof.Proofs

open Sys2Proof Sys2Proof.Machine Sys2Proof.Claims

theorem cycles_cons {e : CycleInput} {c c' : Clocked} (h : cycle e c = .next c') (es : List CycleInput) :
    cycles (e :: es) c = cycles es c' := by
  simp only [cycles, h]

/-- A quiet cycle has nothing but its end: no access, and nothing newly in flight. -/
theorem cycle_quiet (c : Clocked) : cycle quietCycle c = endCycle c.left c.block := by
  simp [cycle, quietCycle, cycleAccess, softResets]

section
variable {s t : State}

/-- A quiet cycle before the last of the latency only counts. -/
theorem cycle_quiet_counts (hb : s.busy = true) (n : Nat) :
    cycle quietCycle ⟨s, n + 2⟩ = .next ⟨s, n + 1⟩ := by
  simp [cycle_quiet, endCycle, hb]

/-- The last quiet cycle of the latency takes the core's step (R145, R166). -/
theorem cycle_quiet_completes (hb : s.busy = true) (ht : coreStep s = .next t) :
    cycle quietCycle ⟨s, 1⟩ = .next ⟨t, 0⟩ := by
  simp [cycle_quiet, endCycle, hb, ht]

/-- Fewer quiet cycles than are left only count. -/
theorem cycles_quiet_count (hb : s.busy = true) (n k : Nat) :
    cycles (List.replicate k quietCycle) ⟨s, n + k + 1⟩ = .next ⟨s, n + 1⟩ := by
  induction k with
  | zero => rfl
  | succ k ih => exact (cycles_cons (cycle_quiet_counts hb (n + k)) _).trans ih

/-- As many quiet cycles as are left end in the core's step. -/
theorem cycles_quiet_complete (hb : s.busy = true) (ht : coreStep s = .next t) (n : Nat) :
    cycles (List.replicate (n + 1) quietCycle) ⟨s, n + 1⟩ = .next ⟨t, 0⟩ := by
  induction n with
  | zero => exact cycles_cons (cycle_quiet_completes hb ht) []
  | succ n ih => exact (cycles_cons (cycle_quiet_counts hb n) _).trans ih

end

/-- A latency is at least 1 (R13). -/
theorem latency_pos (s : State) : 0 < latency s := by
  unfold latency
  split <;> omega

/-- Settles O60: quiet cycles count the latency down, and the last one takes the core's step, which goes on in
every sound busy block. -/
theorem completionComesAfterTheLatency : Obligations.CompletionComesAfterTheLatency := by
  intro s k hs hb
  constructor
  · intro hk
    obtain ⟨n, hn⟩ : ∃ n, latency s = n + k + 1 := ⟨latency s - k - 1, by omega⟩
    rw [start, hn]
    exact ⟨_, cycles_quiet_count hb n k, rfl⟩
  · obtain ⟨t, ht, hidle⟩ := coreStep_of_sound hs hb
    obtain ⟨n, hn⟩ : ∃ n, latency s = n + 1 := Nat.exists_eq_add_one.mpr (latency_pos s)
    rw [start, hn]
    exact ⟨_, cycles_quiet_complete hb ht n, ht, hidle⟩

end Sys2Proof.Proofs
end

section
/-! PROOFS, the invariant. Every named update of the state keeps it; a completion restores it because the effect of
every command leaves the registers it speaks of in agreement. -/

namespace Sys2Proof.Proofs

open Sys2Proof Sys2Proof.Machine Sys2Proof.Safety Sys2Proof.Claims

/-! ## Updates that keep the invariant -/

/-- The items of the state that the invariant does not speak of may take any value. -/
theorem sound_frame {s : State} (hs : Sound s) (doneIe errIe dvalid : Bool) (opa opb res : Word)
    (st : Vector Word 4) (m : Vector Word 16) (h : Vector Word 4) (cnt : BitVec 64) (reply : BusReply)
    (draws : Nat) (inputs : List Event) :
    Sound { s with
      doneIe := doneIe, errIe := errIe, dvalid := dvalid, opa := opa, opb := opb, res := res, st := st
      m := m, h := h, cnt := cnt, reply := reply, draws := draws, inputs := inputs } :=
  ⟨hs.idle, hs.generationInFlight, hs.command, hs.roundKeysForAddrk, hs.tready, hs.tables, hs.roundKeys,
    hs.done, hs.errors⟩

/-- R310, R311: a reset of the block leads to a sound state from every state. -/
theorem sound_resetBlock (s : State) : Sound (resetBlock s) :=
  ⟨nofun, fun _ _ => rfl, nofun, nofun, rfl, nofun, nofun, fun _ => rfl,
    ⟨nofun, fun h => absurd rfl h⟩, Nat.zero_le _⟩

/-- R281: every error has a code from 1 to 5. -/
theorem code_range (e : CmdError) : e.code ≠ 0#4 ∧ e.code ≤ 5#4 := by
  cases e <;> decide

section
variable {s t : State} (hs : Sound s)
include hs

/-- R38: an error keeps the invariant, the first one by its code and a later one by changing nothing. -/
theorem sound_raiseCmdError (e : CmdError) : Sound (raiseCmdError e s) := by
  unfold raiseCmdError
  split
  · exact hs
  · obtain ⟨nonzero, le⟩ := code_range e
    exact { hs with errors := ⟨⟨fun _ => nonzero, fun _ => rfl⟩, le⟩ }

/-- R42: a STATUS write clears ERR and ERRCODE together. -/
theorem sound_writeStatus (v : Word) : Sound (writeStatus v s) := by
  refine { hs with done := fun hb => ?done, errors := ?errors }
  case done => simp [hs.done hb]
  case errors =>
    cases hv : v[2]
    case false => simpa [hv] using hs.errors
    case true => simp [hv]

theorem sound_writeCtrl (v : Word) : Sound (writeCtrl v s) := by
  unfold writeCtrl
  split
  · exact sound_resetBlock s
  · exact sound_frame hs ..

/-- R143: acceptance puts a legal command in flight in an idle block. -/
theorem sound_accept {c : Word} {i : Instr} (hb : s.busy = false) (hd : decode c = .ok i)
    (hk : needsRoundKeys i = true → s.rkv = true) : Sound (accept c i s) where
  idle := by simp
  generationInFlight := by simp
  command c' hc := by
    obtain rfl : c = c' := by simpa using hc
    exact ⟨i, hd, by simp [(hs.idle hb).2]⟩
  roundKeysForAddrk c' r hc hd' := by
    obtain rfl : c = c' := by simpa using hc
    obtain rfl : i = .addrk r := by simpa [hd] using hd'
    simpa using hk rfl
  tready := by
    have := hs.tready
    by_cases h : i = .sboxgen <;> simp [h, this]
  tables := by
    simp only [accept_tready, accept_sbox, accept_isbox]
    split
    · nofun
    · exact hs.tables
  roundKeys := by simpa using hs.roundKeys
  done _ := accept_done c i s
  errors := by simpa using hs.errors

theorem sound_writeCmd (c : Word) : Sound (writeCmd c s) := by
  obtain ⟨e, he⟩ | ⟨i, hb, hd, hk, he⟩ := writeCmd_cases c s
  · exact he ▸ sound_raiseCmdError hs e
  · exact he ▸ sound_accept hs hb hd hk

/-- R148: a write to an input register keeps the invariant if storing the value in an idle block does. -/
theorem sound_writeInput {store : State} (hstore : s.busy = false → Sound store) :
    Sound (writeInput store s) := by
  obtain ⟨-, he⟩ | ⟨hb, he⟩ := writeInput_cases store s
  · exact he.symm ▸ sound_raiseCmdError hs .ebusy
  · exact he.symm ▸ hstore hb

/-- R46: a KEY write gives up the round keys of the old key. In flight ADDRK would need them, so the block
is idle. -/
theorem sound_keyWrite (hb : s.busy = false) (key : Vector Word 4) :
    Sound { s with key := key, rkv := false } :=
  { hs with
    roundKeysForAddrk := fun c r hc _ => by simp [(hs.idle hb).1] at hc
    roundKeys := nofun }

theorem sound_writeReg (r : Reg) (v : Word) : Sound (writeReg s r v) := by
  cases r
  case ctrl => exact sound_writeCtrl hs v
  case status => exact sound_writeStatus hs v
  case cmd => exact sound_writeCmd hs v
  case key => exact sound_writeInput hs fun hb => sound_keyWrite hs hb _
  case opa | opb | st | m => exact sound_writeInput hs fun _ => sound_frame hs ..
  all_goals exact hs

theorem sound_afterRead (r : Reg) : Sound (afterRead s r) := by
  unfold afterRead
  split
  · exact sound_frame hs ..
  · exact hs

theorem sound_hostAccess {off : BitVec 12} {a : HostAccess} (h : hostAccess off a s = .next t) : Sound t := by
  obtain ⟨n, -, -, rfl⟩ | ⟨n, v, -, -, rfl⟩ := hostAccess_next h
  · exact sound_frame (sound_afterRead hs _) ..
  · exact sound_frame (sound_writeReg hs _ v) ..

theorem sound_busAccess {addr : Nat} {a : HostAccess} (h : busAccess addr a s = .next t) : Sound t := by
  unfold busAccess at h
  split at h
  · exact sound_hostAccess hs h
  · exact next_inj h ▸ hs

end

/-! ## The core's step -/

/-- What the invariant says of the registers and flags of a block with no table generation in flight, apart
from BUSY, DONE and CUR. -/
structure Settled (s : State) : Prop where
  gen : s.gen = false
  tready : s.tready = true
  tables : s.sbox = genSbox ∧ s.isbox = genIsbox
  roundKeys : s.rkv = true → s.rk = keyExpansion genSbox s.key
  errors : (s.err = true ↔ s.errCode ≠ 0#4) ∧ s.errCode ≤ 5#4

/-- The items that a command's effect may change and `Settled` does not speak of may take any value. -/
theorem settled_frame {s : State} (hs : Settled s) (dvalid : Bool) (res : Word) (st h : Vector Word 4)
    (cnt : BitVec 64) : Settled { s with dvalid := dvalid, res := res, st := st, h := h, cnt := cnt } :=
  ⟨hs.gen, hs.tready, hs.tables, hs.roundKeys, hs.errors⟩

/-- Every command in flight but SBOXGEN finds the tables generated. -/
theorem settled_of_command {s : State} {c : Word} {i : Instr} (hs : Sound s) (hc : s.cur = some c)
    (hd : decode c = .ok i) (hi : i ≠ .sboxgen) : Settled s := by
  obtain ⟨j, hj, gen⟩ := hs.command c hc
  obtain rfl : i = j := by simpa [hd] using hj
  have hgen : s.gen = false := by simpa [hi] using gen
  have htready : s.tready = true := by simpa [hgen] using hs.tready
  exact ⟨hgen, htready, hs.tables htready, hs.roundKeys, hs.errors⟩

/-- R164, R166: a table generation settles the block. -/
theorem settled_writeTables {s : State} (hs : Sound s) : Settled (writeTables s) :=
  ⟨rfl, rfl, ⟨rfl, rfl⟩, hs.roundKeys, hs.errors⟩

/-- R184: the key expansion is made with the generated table. -/
theorem settled_expandKey {s : State} (hs : Settled s) : Settled (expandKey s) :=
  { hs with roundKeys := fun _ => congrArg (keyExpansion · s.key) hs.tables.1 }

/-- A settled block in which nothing is in flight is sound, whatever DONE is. -/
theorem sound_of_settled {s : State} (hs : Settled s) (done : Bool) :
    Sound { s with busy := false, done := done, cur := none } where
  idle _ := ⟨rfl, hs.gen⟩
  generationInFlight := nofun
  command := nofun
  roundKeysForAddrk := nofun
  tready := by simp [hs.gen, hs.tready]
  tables _ := hs.tables
  roundKeys := hs.roundKeys
  done := nofun
  errors := hs.errors

/-- R146: a command but SBOXGEN writes result registers only, of the key schedule besides if it expands the
key. -/
theorem exec_next {i : Instr} {s t : State} (hi : i ≠ .sboxgen) (h : exec i s = .next t) :
    (∃ dvalid res st h cnt,
      t = completed { s with dvalid := dvalid, res := res, st := st, h := h, cnt := cnt }) ∨
    ∃ st, t = completed { expandKey s with st := st } := by
  cases i
  case sboxgen => exact absurd rfl hi
  case keyexp | encrypt | decrypt => exact .inr ⟨_, next_inj h⟩
  case rcon r =>
    obtain ⟨range, -⟩ := execRcon_next h
    exact .inl ⟨_, _, _, _, _, next_inj ((execRcon_legal range s).symm.trans h)⟩
  case addrk r =>
    obtain ⟨range, -⟩ := execAddrk_next h
    exact .inl ⟨_, _, _, _, _, next_inj ((execAddrk_legal range s).symm.trans h)⟩
  all_goals exact .inl ⟨_, _, _, _, _, next_inj h⟩

/-- R145: the completion of the command in flight. -/
theorem sound_exec {s t : State} {c : Word} {i : Instr} (hs : Sound s) (hc : s.cur = some c)
    (hd : decode c = .ok i) (h : exec i s = .next t) : Sound t := by
  by_cases hi : i = .sboxgen
  · subst hi
    exact next_inj h ▸ sound_of_settled (settled_writeTables hs) true
  · have settled := settled_of_command hs hc hd hi
    obtain ⟨_, _, _, _, _, rfl⟩ | ⟨_, rfl⟩ := exec_next hi h
    · exact sound_of_settled (settled_frame settled ..) true
    · exact sound_of_settled (settled_frame (settled_expandKey settled) ..) true

/-- R166: the completion of the reset-time generation. -/
theorem sound_resetGenComplete {s : State} (hs : Sound s) (hc : s.cur = none) :
    Sound (resetGenComplete s) := by
  have h := sound_of_settled (settled_writeTables hs) s.done
  rwa [← hc] at h

theorem sound_coreTurn {s t : State} (hs : Sound s) (h : coreTurn s = .next t) : Sound t := by
  obtain ⟨-, rfl⟩ | ⟨-, hstep⟩ := coreTurn_next h
  · exact hs
  · obtain ⟨hc, -, rfl⟩ | ⟨c, i, hc, hd, he⟩ := coreStep_next hstep
    · exact sound_resetGenComplete hs hc
    · exact sound_exec hs hc hd he

/-! ## The step -/

theorem sound_takeEvent {s t : State} (hs : Sound s) {e : Event} (h : takeEvent e s = .next t) : Sound t := by
  cases e with
  | host off a => exact sound_hostAccess hs h
  | bus addr a => exact sound_busAccess hs h
  | complete => exact sound_coreTurn hs h
  | reset => exact next_inj h ▸ sound_resetBlock s

/-- Settles O56: whatever the environment does next, or the core where it does nothing, keeps the
invariant. -/
theorem stepKeepsTheInvariant : Obligations.StepKeepsTheInvariant := by
  intro s t hs h
  cases hin : s.inputs with
  | nil => exact sound_coreTurn hs ((step_nil hin).symm.trans h)
  | cons e rest =>
    exact sound_takeEvent (s := { s with inputs := rest }) (sound_frame hs ..) ((step_cons hin).symm.trans h)

/-- Settles O55: the reset state is what a reset of the block leaves of it. -/
theorem resetMeetsTheInvariant : Obligations.ResetMeetsTheInvariant := sound_resetBlock State.reset

end Sys2Proof.Proofs
end

section
/-! PROOFS, the register map. `Reg.offset` reaches every aligned offset outside the reserved ranges, and
`regAt` undoes it. -/

namespace Sys2Proof.Proofs

open Sys2Proof Sys2Proof.Machine

/-- An access of 4 bytes at a multiple of 4 is legal (R82). -/
theorem accessLegal_aligned {off : BitVec 12} (h : off.toNat % 4 = 0) : accessLegal off 4 = true := by
  have low : off.extractLsb' 0 2 = 0#2 := BitVec.eq_of_toNat_eq (by simpa using h)
  simp [accessLegal, low]

theorem offset_aligned (r : Reg) : r.offset.toNat % 4 = 0 := by
  cases r <;> simp only [Reg.offset, BitVec.toNat_ofNat] <;> omega

/-- Table 10-1: the register at a register's offset is that register. For a bank of registers the comparisons
of `regAt` single out the bank, and the distance from its base gives the index back. -/
theorem regAt_offset (r : Reg) : regAt r.offset = r := by
  cases r
  case key j | st j | m j | h j | rk j | t j | s j =>
    have hj := j.isLt
    simp (disch := omega) only [regAt, Reg.offset, BitVec.toNat_ofNat, Nat.mod_eq_of_lt, if_neg, if_pos,
      Nat.add_sub_cancel_left, Nat.mul_div_cancel_left, Fin.ofNat_val_eq_self]
  case sbox x | isbox x =>
    have hx := x.isLt
    simp (disch := omega) only [regAt, Reg.offset, BitVec.toNat_ofNat, Nat.mod_eq_of_lt, if_neg, if_pos,
      Nat.add_sub_cancel_left, Nat.mul_div_cancel_left, BitVec.ofNat_toNat, BitVec.setWidth_eq]
  all_goals rfl

/-- R55: the offset lies in one of the four ranges that Table 10-1 names no register in. -/
def InReservedRange (off : BitVec 12) : Prop :=
  off.toNat = 0x01C ∨ (0x098 ≤ off.toNat ∧ off.toNat ≤ 0x0FC) ∨
    (0x1B0 ≤ off.toNat ∧ off.toNat ≤ 0x3FC) ∨ 0xE00 ≤ off.toNat

theorem regAt_of_inReservedRange {off : BitVec 12} (h : InReservedRange off) : regAt off = .reserved := by
  obtain h | ⟨lo, hi⟩ | ⟨lo, hi⟩ | h := h
  all_goals simp (disch := omega) only [regAt, if_neg, if_pos]

/-- A bank of `n` registers from `base` on reaches every aligned offset of it. -/
theorem exists_offset_of_bank {off : BitVec 12} {base n : Nat} {bank : Fin n → Reg}
    (hbank : ∀ j, (bank j).offset = BitVec.ofNat 12 (base + 4 * j.val)) (hbase : base % 4 = 0)
    (ha : off.toNat % 4 = 0) (lo : base ≤ off.toNat) (hi : off.toNat < base + 4 * n) :
    ∃ j, (bank j).offset = off := by
  refine ⟨⟨(off.toNat - base) / 4, by omega⟩, (hbank _).trans (BitVec.eq_of_toNat_eq ?_)⟩
  have index : base + 4 * ((off.toNat - base) / 4) = off.toNat := by omega
  rw [index, BitVec.ofNat_toNat, BitVec.setWidth_eq]

/-- Table 10-1 leaves no aligned offset outside the reserved ranges without a register. -/
theorem exists_offset {off : BitVec 12} (ha : off.toNat % 4 = 0) (h : ¬InReservedRange off) :
    ∃ r : Reg, r ≠ .reserved ∧ r.offset = off := by
  have single {r : Reg} (hr : r ≠ .reserved) (he : r.offset.toNat = off.toNat) :
      ∃ r : Reg, r ≠ .reserved ∧ r.offset = off := ⟨r, hr, BitVec.eq_of_toNat_eq he⟩
  have banked {n : Nat} {bank : Fin n → Reg} (hr : ∀ j, bank j ≠ .reserved)
      (he : ∃ j, (bank j).offset = off) : ∃ r : Reg, r ≠ .reserved ∧ r.offset = off :=
    he.imp' bank fun j hj => ⟨hr j, hj⟩
  unfold InReservedRange at h
  have table : (off.toNat = 0x000 ∨ off.toNat = 0x004 ∨ off.toNat = 0x008 ∨ off.toNat = 0x00C ∨
      off.toNat = 0x010 ∨ off.toNat = 0x014 ∨ off.toNat = 0x018 ∨ off.toNat = 0x090 ∨ off.toNat = 0x094) ∨
      (0x020 ≤ off.toNat ∧ off.toNat < 0x030) ∨ (0x030 ≤ off.toNat ∧ off.toNat < 0x040) ∨
      (0x040 ≤ off.toNat ∧ off.toNat < 0x080) ∨ (0x080 ≤ off.toNat ∧ off.toNat < 0x090) ∨
      (0x100 ≤ off.toNat ∧ off.toNat < 0x1B0) ∨ (0x400 ≤ off.toNat ∧ off.toNat < 0x800) ∨
      (0x800 ≤ off.toNat ∧ off.toNat < 0xC00) ∨ (0xC00 ≤ off.toNat ∧ off.toNat < 0xD00) ∨
      (0xD00 ≤ off.toNat ∧ off.toNat < 0xE00) := by omega
  obtain named | ⟨lo, hi⟩ | ⟨lo, hi⟩ | ⟨lo, hi⟩ | ⟨lo, hi⟩ | ⟨lo, hi⟩ | ⟨lo, hi⟩ | ⟨lo, hi⟩ | ⟨lo, hi⟩ |
    ⟨lo, hi⟩ := table
  · obtain h | h | h | h | h | h | h | h | h := named
    · exact single (r := .id) nofun h.symm
    · exact single (r := .ctrl) nofun h.symm
    · exact single (r := .status) nofun h.symm
    · exact single (r := .cmd) nofun h.symm
    · exact single (r := .opa) nofun h.symm
    · exact single (r := .opb) nofun h.symm
    · exact single (r := .res) nofun h.symm
    · exact single (r := .cntLo) nofun h.symm
    · exact single (r := .cntHi) nofun h.symm
  · exact banked (bank := .key) nofun (exists_offset_of_bank (fun _ => rfl) rfl ha lo hi)
  · exact banked (bank := .st) nofun (exists_offset_of_bank (fun _ => rfl) rfl ha lo hi)
  · exact banked (bank := .m) nofun (exists_offset_of_bank (fun _ => rfl) rfl ha lo hi)
  · exact banked (bank := .h) nofun (exists_offset_of_bank (fun _ => rfl) rfl ha lo hi)
  · exact banked (bank := .rk) nofun (exists_offset_of_bank (fun _ => rfl) rfl ha lo hi)
  · exact banked (bank := fun x : Fin 256 => .sbox (.ofFin x)) nofun
      (exists_offset_of_bank (fun _ => rfl) rfl ha lo hi)
  · exact banked (bank := fun x : Fin 256 => .isbox (.ofFin x)) nofun
      (exists_offset_of_bank (fun _ => rfl) rfl ha lo hi)
  · exact banked (bank := .t) nofun (exists_offset_of_bank (fun _ => rfl) rfl ha lo hi)
  · exact banked (bank := .s) nofun (exists_offset_of_bank (fun _ => rfl) rfl ha lo hi)

/-- Settles O5: outside the reserved ranges an aligned offset is a register's own, so `regAt` finds that
register. -/
theorem registerMapIsTable10 : Obligations.RegisterMapIsTable10 := by
  refine ⟨fun r => ⟨regAt_offset r, offset_aligned r⟩, fun off ha => ?_⟩
  change (regAt off = .reserved ↔ InReservedRange off) ∧ _
  by_cases h : InReservedRange off
  · simp [h, regAt_of_inReservedRange h]
  · obtain ⟨r, hr, rfl⟩ := exists_offset ha h
    simp [h, hr, regAt_offset]

end Sys2Proof.Proofs
end

section
/-! PROOFS, reads. What a read of each register returns, as numbers. -/

namespace Sys2Proof.Proofs

open Sys2Proof Sys2Proof.Machine Sys2Proof.Claims

/-! ## Packed registers -/

theorem ctrlWord_toNat (s : State) : (ctrlWord s).toNat = s.doneIe.toNat + 2 * s.errIe.toNat := by
  unfold ctrlWord
  cases s.doneIe <;> cases s.errIe <;> rfl

/-- The six flags of STATUS, in bits 0 to 5. -/
def statusFlags (s : State) : Word :=
  flagAt 0 s.busy ||| flagAt 1 s.done ||| flagAt 2 s.err ||| flagAt 3 s.tready ||| flagAt 4 s.rkv
    ||| flagAt 5 s.dvalid

theorem statusFlags_toNat (s : State) :
    (statusFlags s).toNat = s.busy.toNat + 2 * s.done.toNat + 4 * s.err.toNat + 8 * s.tready.toNat +
      16 * s.rkv.toNat + 32 * s.dvalid.toNat := by
  have sum : ∀ b0 b1 b2 b3 b4 b5 : Bool,
      (flagAt 0 b0 ||| flagAt 1 b1 ||| flagAt 2 b2 ||| flagAt 3 b3 ||| flagAt 4 b4 ||| flagAt 5 b5).toNat =
        b0.toNat + 2 * b1.toNat + 4 * b2.toNat + 8 * b3.toNat + 16 * b4.toNat + 32 * b5.toNat := by
    decide
  exact sum ..

/-- R35: ERRCODE stands above the flags, so the bits of STATUS add up. -/
theorem statusWord_toNat (s : State) :
    (statusWord s).toNat = s.busy.toNat + 2 * s.done.toNat + 4 * s.err.toNat + 8 * s.tready.toNat +
      16 * s.rkv.toNat + 32 * s.dvalid.toNat + 256 * s.errCode.toNat := by
  have code : (s.errCode.setWidth 32 <<< 8).toNat = s.errCode.toNat <<< 8 := by
    have := s.errCode.isLt
    simp only [BitVec.toNat_shiftLeft, BitVec.toNat_setWidth, Nat.shiftLeft_eq]
    omega
  have bound : (statusFlags s).toNat < 2 ^ 8 := by
    rw [statusFlags_toNat]
    linarith [Bool.toNat_le s.busy, Bool.toNat_le s.done, Bool.toNat_le s.err, Bool.toNat_le s.tready,
      Bool.toNat_le s.rkv, Bool.toNat_le s.dvalid]
  calc (statusWord s).toNat
      = (statusFlags s).toNat ||| s.errCode.toNat <<< 8 := by
        rw [← code, ← BitVec.toNat_or]; rfl
    _ = s.errCode.toNat <<< 8 + (statusFlags s).toNat := by
        rw [Nat.or_comm, Nat.shiftLeft_add_eq_or_of_lt bound]
    _ = _ := by
        rw [Nat.shiftLeft_eq, statusFlags_toNat]; omega

theorem cnt_halves (cnt : BitVec 64) :
    (cnt.extractLsb' 0 32).toNat + 2 ^ 32 * (cnt.extractLsb' 32 32).toNat = cnt.toNat := by
  have := cnt.isLt
  simp only [BitVec.extractLsb'_toNat, Nat.shiftRight_eq_div_pow]
  omega

/-! ## Open reads -/

/-- R146: no command writes these registers. -/
theorem writes_of_neverWritten {r : Reg} (h : neverWritten r = true) (i : Instr) : writes i r = false := by
  cases r
  case res | st | h | cntLo | cntHi | rk | sbox | isbox => nomatch h
  all_goals cases i <;> rfl

theorem isTable_of_neverWritten {r : Reg} (h : neverWritten r = true) : r.isTable = false := by
  cases r
  case sbox | isbox => nomatch h
  all_goals rfl

theorem inFlightWrites_of_neverWritten {r : Reg} (h : neverWritten r = true) (s : State) :
    inFlightWrites s r = false := by
  unfold inFlightWrites
  split
  · simp [isTable_of_neverWritten h]
  · split
    · exact writes_of_neverWritten h _
    · rfl

theorem readsOpen_of_neverWritten {r : Reg} (h : neverWritten r = true) (s : State) :
    readsOpen s r = false := by
  simp [readsOpen, inFlightWrites_of_neverWritten h, isTable_of_neverWritten h]

/-- A read that is not open returns what the register holds (R86). -/
theorem memRead_of_not_open {s : State} {r : Reg} (h : readsOpen s r = false) :
    memRead r.offset 4 s = .next { s with reply := .data (regValue s r) } := by
  simp [memRead_legal (accessLegal_aligned (offset_aligned r)), regAt_offset, afterRead, readValue, h]

/-! ## The MD5 constants -/

theorem md5T_eq_tTable (j : Fin 64) : tTable[j.val]? = some md5T[j].toNat := by
  revert j; decide

theorem md5S_toNat (j : Fin 64) : (BitVec.ofNat 32 (md5S j)).toNat = md5S j := by
  revert j; decide

/-- Settles O8: the packed registers by their bits, the others by what they hold, and T and S by the tables of
the MD5 engine. -/
theorem packedRegistersReadAsTheRulesSay : Obligations.PackedRegistersReadAsTheRulesSay := fun s =>
  ⟨fun _ => memRead_of_not_open, fun _ h => readsOpen_of_neverWritten h s, rfl, ctrlWord_toNat s,
    statusWord_toNat s, rfl, rfl, rfl, rfl, fun _ => ⟨rfl, rfl, rfl⟩, fun _ => rfl, fun _ => rfl, cnt_halves s.cnt,
    fun _ => ⟨rfl, rfl⟩, fun j => ⟨md5T_eq_tTable j, md5S_toNat j⟩, rfl⟩

end Sys2Proof.Proofs
end

section
/-! PROOFS, writes. What a write to each kind of register does: STATUS and CTRL at any time, the input registers
while BUSY = 0. -/

namespace Sys2Proof.Proofs

open Sys2Proof Sys2Proof.Machine Sys2Proof.Claims

/-- A write of 4 bytes at a register's offset is performed on that register. -/
theorem memWrite_offset (r : Reg) (v : Word) (s : State) :
    memWrite r.offset 4 v s = .next { writeReg s r v with reply := .ack } := by
  rw [memWrite_legal (accessLegal_aligned (offset_aligned r)), regAt_offset]

/-- Bit `k` of a word, as a number. -/
theorem getLsbD_eq_decide (v : Word) (k : Nat) : v.getLsbD k = decide (v.toNat / 2 ^ k % 2 = 1) :=
  Nat.testBit_eq_decide_div_mod_eq

/-! ## STATUS and the errors -/

/-- R42, on the bits of the value written. -/
theorem memWrite_status (v : Word) (s : State) :
    memWrite 0x008#12 4 v s = .next { writeStatus v s with reply := .ack } := memWrite_offset .status v s

/-- Settles O9: bits 1 and 2 of the value written decide which fields are cleared. -/
theorem statusWriteClearsDoneAndErr : Obligations.StatusWriteClearsDoneAndErr := by
  intro s v
  rw [memWrite_status, writeStatus, getLsbD_eq_decide, getLsbD_eq_decide]
  by_cases h1 : v.toNat / 2 % 2 = 1 <;> by_cases h2 : v.toNat / 4 % 2 = 1 <;> simp [h1, h2]

/-- R281: the codes of the errors. -/
theorem code_eq_codeNumber (e : CmdError) : e.code = BitVec.ofNat 4 (codeNumber e) := by
  cases e <;> rfl

/-- R38: the first error is kept, and a later one changes nothing. -/
theorem raiseCmdError_eq (e : CmdError) (s : State) :
    raiseCmdError e s = { s with err := true, errCode := if s.err = true then s.errCode else e.code } := by
  cases h : s.err
  case false => simp [raiseCmdError, h]
  case true => rw [raiseCmdError, if_pos h, if_pos rfl, ← h]

/-- Settles O10: an error is recorded once, and the STATUS write of O9 is what clears it. -/
theorem firstErrorIsKept : Obligations.FirstErrorIsKept := by
  refine ⟨fun s e => code_eq_codeNumber e ▸ raiseCmdError_eq e s, fun s v => ?_⟩
  refine ⟨_, statusWriteClearsDoneAndErr s v, fun set => ?_, fun clear => ?_⟩
  · simp [set]
  · simp [clear]

/-! ## CTRL -/

theorem memWrite_ctrl (v : Word) (s : State) :
    memWrite 0x004#12 4 v s = .next { writeCtrl v s with reply := .ack } := memWrite_offset .ctrl v s

theorem writeCtrl_reset {v : Word} (h : v.getLsbD 31 = true) (s : State) : writeCtrl v s = resetBlock s :=
  if_pos h

theorem writeCtrl_enables {v : Word} (h : v.getLsbD 31 = false) (s : State) :
    writeCtrl v s = { s with doneIe := v.getLsbD 0, errIe := v.getLsbD 1 } := by
  rw [writeCtrl, h, if_neg Bool.false_ne_true]

/-- R33, R34: bit 31 of CTRL reads 0, in every state. -/
theorem ctrlWord_getLsbD_31 (s : State) : (ctrlWord s).getLsbD 31 = false := by
  unfold ctrlWord
  cases s.doneIe <;> cases s.errIe <;> rfl

/-- Settles O11: bit 31 of the value written tells the soft reset from a write of the enables. -/
theorem softResetIsTheHardwareReset : Obligations.SoftResetIsTheHardwareReset := by
  intro s v
  refine ⟨ctrlWord_getLsbD_31 s, fun h => ?reset, fun h => ?enables⟩
  case reset =>
    have hw := memWrite_ctrl v s
    rw [writeCtrl_reset h] at hw
    exact ⟨resetBlock s, rfl, hw, (by decide : ctrlWord State.reset = 0#32), rfl, rfl, rfl, rfl⟩
  case enables => exact (memWrite_ctrl v s).trans (by rw [writeCtrl_enables h])

/-! ## The input registers -/

/-- While BUSY = 0 a write to an input register is carried out (R148). -/
theorem writeInput_idle {s : State} (hb : s.busy = false) (store : State) : writeInput store s = store :=
  if_neg (by simp [hb])

/-- An entry other than the one written is as before. -/
theorem getElem_set_of_ne {n : Nat} (xs : Vector Word n) (v : Word) {j k : Fin n} (h : k ≠ j) :
    (xs.set j v)[k] = xs[k] :=
  Vector.getElem_set_ne j.isLt k.isLt fun e => h (Fin.ext e.symm)

/-! What another register reads after an input register is stored to: STATUS shows RKV, which a KEY write
clears. -/

section
variable {r : Reg} (s : State) (v : Word)

theorem regValue_set_opa (h : r ≠ .opa) : regValue { s with opa := v } r = regValue s r := by
  cases r
  case opa => exact absurd rfl h
  all_goals rfl

theorem regValue_set_opb (h : r ≠ .opb) : regValue { s with opb := v } r = regValue s r := by
  cases r
  case opb => exact absurd rfl h
  all_goals rfl

theorem regValue_set_key {j : Fin 4} (h : r ≠ .key j) (hstatus : r ≠ .status) :
    regValue { s with key := s.key.set j v, rkv := false } r = regValue s r := by
  cases r
  case status => exact absurd rfl hstatus
  case key k => exact getElem_set_of_ne _ _ fun e => h (congrArg Reg.key e)
  all_goals rfl

theorem regValue_set_st {j : Fin 4} (h : r ≠ .st j) :
    regValue { s with st := s.st.set j v } r = regValue s r := by
  cases r
  case st k => exact getElem_set_of_ne _ _ fun e => h (congrArg Reg.st e)
  all_goals rfl

theorem regValue_set_m {j : Fin 16} (h : r ≠ .m j) :
    regValue { s with m := s.m.set j v } r = regValue s r := by
  cases r
  case m k => exact getElem_set_of_ne _ _ fun e => h (congrArg Reg.m e)
  all_goals rfl

end

/-- Table 10-1: the offsets 0x020 to 0x02C are those of the KEY words. -/
theorem offset_in_keyBank_iff (r : Reg) :
    (0x020 ≤ r.offset.toNat ∧ r.offset.toNat < 0x030) ↔ ∃ j, r = .key j := by
  cases r
  case key j =>
    refine ⟨fun _ => ⟨j, rfl⟩, fun _ => ?_⟩
    simp only [Reg.offset, BitVec.toNat_ofNat]
    omega
  all_goals
    refine ⟨fun h => ?_, fun ⟨_, h⟩ => nomatch h⟩
    simp only [Reg.offset, BitVec.toNat_ofNat] at h
    omega

/-- R44, R46, R47, R48: what a write to an input register does while BUSY = 0. -/
theorem idleWrite_of_input {s : State} (hb : s.busy = false) (v : Word) {r : Reg}
    (hr : r = .opa ∨ r = .opb ∨ (∃ j, r = .key j) ∨ (∃ j, r = .st j) ∨ ∃ k, r = .m k) :
    regValue (writeReg s r v) r = v ∧
      (∀ r', r' ≠ r → r' ≠ .status → regValue (writeReg s r v) r' = regValue s r') ∧
      (writeReg s r v).rkv = (if ∃ j, r = .key j then false else s.rkv) ∧
      { writeReg s r v with
        opa := s.opa, opb := s.opb, key := s.key, st := s.st, m := s.m, rkv := s.rkv } = s := by
  obtain rfl | rfl | ⟨j, rfl⟩ | ⟨j, rfl⟩ | ⟨k, rfl⟩ := hr
  · rw [show writeReg s .opa v = _ from writeInput_idle hb _]
    exact ⟨rfl, fun _ hr _ => regValue_set_opa s v hr, by simp, rfl⟩
  · rw [show writeReg s .opb v = _ from writeInput_idle hb _]
    exact ⟨rfl, fun _ hr _ => regValue_set_opb s v hr, by simp, rfl⟩
  · rw [show writeReg s (.key j) v = _ from writeInput_idle hb _]
    exact ⟨Vector.getElem_set_self _, fun _ hr hs => regValue_set_key s v hr hs, by simp, rfl⟩
  · rw [show writeReg s (.st j) v = _ from writeInput_idle hb _]
    exact ⟨Vector.getElem_set_self _, fun _ hr _ => regValue_set_st s v hr, by simp, rfl⟩
  · rw [show writeReg s (.m k) v = _ from writeInput_idle hb _]
    exact ⟨Vector.getElem_set_self _, fun _ hr _ => regValue_set_m s v hr, by simp, rfl⟩

/-- Table 10-1: the registers from 0x010 to 0x07C but RES and the reserved offset are the input registers. -/
theorem input_of_offset {r : Reg} (lo : 0x010 ≤ r.offset.toNat) (hi : r.offset.toNat < 0x080)
    (hres : r ≠ .res) (hrsv : r ≠ .reserved) :
    r = .opa ∨ r = .opb ∨ (∃ j, r = .key j) ∨ (∃ j, r = .st j) ∨ ∃ k, r = .m k := by
  cases r
  case opa | opb | key | st | m => simp
  case res => exact absurd rfl hres
  case reserved => exact absurd rfl hrsv
  all_goals
    simp only [Reg.offset, BitVec.toNat_ofNat] at lo hi
    omega

/-- Settles O13: an aligned offset in the range is the offset of an input register. -/
theorem idleWriteStoresTheInput : Obligations.IdleWriteStoresTheInput := by
  intro s off v hb ha lo hi hres hrsv
  have outside : ¬InReservedRange off := by
    have : off.toNat ≠ 0x01C := fun e => hrsv (BitVec.eq_of_toNat_eq e)
    unfold InReservedRange
    omega
  obtain ⟨r, hr, rfl⟩ := exists_offset ha outside
  have input := input_of_offset lo hi (fun e => hres (e ▸ rfl)) hr
  obtain ⟨value, others, rkv, frame⟩ := idleWrite_of_input hb v input
  refine ⟨_, memWrite_offset r v s, ?_⟩
  simp only [regAt_offset, offset_in_keyBank_iff]
  exact ⟨value, others, rkv, congrArg (fun t : State => { t with reply := .ack }) frame⟩

/-! ## The round keys -/

theorem decode_encode_addrk {r : BitVec 4} (h : r.toNat < 11) :
    decode (encode (.addrk r)) = .ok (.addrk r) := by
  revert r; decide

/-- Settles O38: a KEY write leaves RKV = 0, which the issue of ADDRK finds until KEYEXP has run. -/
theorem keyWriteInvalidatesTheRoundKeys : Obligations.KeyWriteInvalidatesTheRoundKeys := by
  intro s j v r hb he hr
  refine ⟨_, rfl, ?_⟩
  simp only [writeReg, writeInput_idle hb]
  refine ⟨trivial, trivial, ?_, _, rfl, ?_⟩
  · simp [writeCmd, hb, decode_encode_addrk hr, raiseCmdError, needsRoundKeys, he, CmdError.code]
  · simp [writeCmd, decode_encode_addrk hr, needsRoundKeys]

end Sys2Proof.Proofs
end

section
/-! PROOFS, DONE. It is set by the completion of a command and by nothing else. -/

namespace Sys2Proof.Proofs

open Sys2Proof Sys2Proof.Machine Sys2Proof.Safety

/-- R37, R145: every command completes with DONE = 1. -/
theorem exec_done {i : Instr} {s t : State} (h : exec i s = .next t) : t.done = true := by
  by_cases hi : i = .sboxgen
  · subst hi
    exact next_inj h ▸ rfl
  · obtain ⟨_, _, _, _, _, rfl⟩ | ⟨_, rfl⟩ := exec_next hi h <;> rfl

/-- R37: a register write sets DONE in no state. -/
theorem done_of_writeReg {s : State} {r : Reg} {v : Word} (h : (writeReg s r v).done = true) :
    s.done = true := by
  have input {store : State} (h : (writeInput store s).done = true) (hstore : store.done = s.done) :
      s.done = true := by
    obtain ⟨-, he⟩ | ⟨-, he⟩ := writeInput_cases store s
    · simpa [he] using h
    · rwa [he, hstore] at h
  cases r
  case ctrl =>
    rw [writeReg, writeCtrl] at h
    split at h
    · exact absurd h Bool.false_ne_true
    · exact h
  case status => exact (Bool.and_eq_true_iff.mp h).1
  case cmd =>
    rw [writeReg] at h
    obtain ⟨e, he⟩ | ⟨i, -, -, -, he⟩ := writeCmd_cases v s
    · simpa [he] using h
    · simp [he] at h
  case opa | opb | key | st | m => exact input h rfl
  all_goals exact h

theorem done_of_hostAccess {off : BitVec 12} {a : HostAccess} {s t : State}
    (h : hostAccess off a s = .next t) (ht : t.done = true) : s.done = true := by
  obtain ⟨n, -, -, rfl⟩ | ⟨n, v, -, -, rfl⟩ := hostAccess_next h
  · exact (afterRead_done _ _).symm.trans ht
  · exact done_of_writeReg ht

/-- R37: a turn of the core that leaves DONE = 1 found it so or completed a command. -/
theorem done_of_coreTurn {s t : State} (h : coreTurn s = .next t) (ht : t.done = true) :
    s.done = true ∨
      (s.busy = true ∧ ∃ c i, s.cur = some c ∧ decode c = .ok i ∧ exec i s = .next t) := by
  obtain ⟨-, rfl⟩ | ⟨hb, hstep⟩ := coreTurn_next h
  · exact .inl ht
  · obtain ⟨-, -, rfl⟩ | hcommand := coreStep_next hstep
    · exact .inl ht
    · exact .inr ⟨hb, hcommand⟩

/-- In a sound state with a command in flight the event `complete` is its completion, which sets DONE. -/
theorem step_completes_command {s : State} {c : Word} {rest : List Event} (hs : Sound s)
    (hc : s.cur = some c) (hin : s.inputs = .complete :: rest) : ∃ t, step s = .next t ∧ t.done = true := by
  have hb : s.busy = true := by
    by_contra hb
    simp [(hs.idle (by simpa using hb)).1] at hc
  obtain ⟨i, hd, -⟩ := hs.command c hc
  have hs' : Sound { s with inputs := rest } := sound_frame hs ..
  obtain ⟨t, ht, -⟩ := coreStep_of_sound hs' hb
  have he := (coreStep_command (s := { s with inputs := rest }) hc hd).symm.trans ht
  exact ⟨t, (step_cons hin).trans ((if_pos hb).trans ht), exec_done he⟩

/-- A clear of STATUS and then the completion, in the order of one cycle (R37, R93). -/
theorem run_statusWrite_complete {s : State} {v c : Word} {rest : List Event} (hs : Sound s)
    (hc : s.cur = some c) (hin : s.inputs = wr .status v :: .complete :: rest) :
    ∃ t, core.run 2 s = .next t ∧ t.done = true := by
  have write := (step_cons hin).trans (memWrite_offset .status v _)
  obtain ⟨t, ht, hdone⟩ := step_completes_command (stepKeepsTheInvariant _ _ hs write) hc rfl
  exact ⟨t, (run_next write 1).trans ((run_one _).trans ht), hdone⟩

/-- Settles O16: one lemma for each thing that clears, sets or leaves DONE. -/
theorem doneFollowsTheLastCommand : Obligations.DoneFollowsTheLastCommand := by
  refine ⟨fun s c i => accept_done c i s, fun s t i => exec_done, fun s v => ?status,
    fun s _ hc hg => ⟨_, coreStep_generation hc hg, resetGenComplete_done s⟩,
    fun s v rest hs ⟨c, hc⟩ hin => run_statusWrite_complete hs hc hin,
    fun s t off a => done_of_hostAccess, fun s t h => next_inj h ▸ rfl, fun s t => done_of_coreTurn⟩
  case status =>
    refine ⟨_, memWrite_status v s, ?_⟩
    rw [writeStatus_done]
    cases v.getLsbD 1 <;> simp

end Sys2Proof.Proofs
end

section
/-! PROOFS, the two engines. The AES commands and the MD5 commands work on separate parts of the state. -/

namespace Sys2Proof.Proofs

open Sys2Proof Sys2Proof.Machine Sys2Proof.Claims

variable {i : Instr} {s t : State}

/-- R61: a command that is no MD5 command does the same whatever the MD5 state holds, and leaves it. -/
theorem exec_of_not_md5 (hi : isMd5 i = false) (he : exec i s = .next t) (m : Vector Word 16) (h : Vector Word 4)
    (cnt : BitVec 64) (dvalid : Bool) :
    exec i { s with m := m, h := h, cnt := cnt, dvalid := dvalid } =
      .next { t with m := m, h := h, cnt := cnt, dvalid := dvalid } := by
  cases i
  case md5init | md5block | md5final => nomatch hi
  case rcon r =>
    obtain ⟨range, rfl⟩ := execRcon_next he
    exact execRcon_legal range _
  case addrk r =>
    obtain ⟨range, rfl⟩ := execAddrk_next he
    exact execAddrk_legal range _
  all_goals
    obtain rfl := next_inj he
    rfl

/-- R61: an MD5 command does the same whatever the AES state holds, and leaves it. -/
theorem exec_of_md5 (hi : isMd5 i = true) (he : exec i s = .next t) (key st : Vector Word 4) (rk : Vector Word 44)
    (sbox isbox : Vector Byte 256) (rkv : Bool) :
    exec i { s with key := key, st := st, rk := rk, sbox := sbox, isbox := isbox, rkv := rkv } =
      .next { t with key := key, st := st, rk := rk, sbox := sbox, isbox := isbox, rkv := rkv } := by
  cases i
  case md5init | md5block | md5final =>
    obtain rfl := next_inj he
    rfl
  all_goals nomatch hi

/-- Settles O24: each engine's commands pass over the state of the other. -/
theorem aesAndMd5ShareNoState : Obligations.AesAndMd5ShareNoState :=
  fun _ _ _ he => ⟨fun hi => exec_of_not_md5 hi he, fun hi => exec_of_md5 hi he⟩

end Sys2Proof.Proofs
end

section
/-! PROOFS, the accesses. Which host accesses are performed, and what a write leaves unchanged: every item at a
read-only register or reserved offset, and the read-only fields of CTRL and STATUS. -/

namespace Sys2Proof.Proofs

open Sys2Proof Sys2Proof.Machine

/-! ## Legal and illegal accesses -/

/-- R82: the low two bits of the offset, as a number. -/
theorem accessLegal_iff {off : BitVec 12} {n : Nat} :
    accessLegal off n = true ↔ n = 4 ∧ off.toNat % 4 = 0 := by
  constructor
  · intro h
    obtain ⟨hn, low⟩ : n = 4 ∧ off.extractLsb' 0 2 = 0#2 := by simpa [accessLegal] using h
    exact ⟨hn, by simpa using congrArg BitVec.toNat low⟩
  · rintro ⟨rfl, ha⟩
    exact accessLegal_aligned ha

/-- Settles O6: a legal access is performed, an illegal one is a bus error. -/
theorem onlyAlignedWordAccessesArePerformed : Obligations.OnlyAlignedWordAccessesArePerformed := by
  intro s off n v
  refine ⟨fun h => ?performed, fun h => ?fault⟩
  case performed =>
    have legal : accessLegal off n = true := accessLegal_iff.mpr h
    exact ⟨memRead_legal legal s, memWrite_legal legal v s⟩
  case fault =>
    have illegal : accessLegal off n = false := by
      rw [← Bool.not_eq_true, accessLegal_iff]
      omega
    exact ⟨memRead_illegal illegal s, memWrite_illegal illegal v s⟩

/-! ## Read-only registers, fields and bits -/

/-- R84: the offsets of the read-only registers, and the reserved ones. -/
def IsReadOnlyOffset (off : BitVec 12) : Prop :=
  off.toNat = 0x000 ∨ off.toNat = 0x018 ∨ off.toNat = 0x01C ∨ 0x080 ≤ off.toNat

/-- Table 10-1: the registers a host write acts on have offsets 0x004 to 0x014 and 0x020 to 0x07C. -/
theorem writeReg_of_isReadOnlyOffset {r : Reg} (h : IsReadOnlyOffset r.offset) (s : State) (v : Word) :
    writeReg s r v = s := by
  cases r
  case id | res | h | cntLo | cntHi | rk | sbox | isbox | t | s | reserved => rfl
  all_goals
    simp only [IsReadOnlyOffset, Reg.offset, BitVec.toNat_ofNat] at h
    omega

/-- R84, R55: such a write is acknowledged and ignored. -/
theorem memWrite_of_isReadOnlyOffset {off : BitVec 12} (ha : off.toNat % 4 = 0) (h : IsReadOnlyOffset off)
    (v : Word) (s : State) : memWrite off 4 v s = .next { s with reply := .ack } := by
  have ignored : writeReg s (regAt off) v = s := by
    by_cases hrsv : InReservedRange off
    · rw [regAt_of_inReservedRange hrsv]
      rfl
    · obtain ⟨r, -, rfl⟩ := exists_offset ha hrsv
      rw [regAt_offset]
      exact writeReg_of_isReadOnlyOffset h s v
  rw [memWrite_legal (accessLegal_aligned ha), ignored]

/-- R33: only the two enables of CTRL can read 1. -/
theorem ctrlWord_getLsbD_of_two_le {k : Nat} (hk : 2 ≤ k) (s : State) : (ctrlWord s).getLsbD k = false := by
  apply Nat.testBit_lt_two_pow
  calc (ctrlWord s).toNat < 2 ^ 2 := by
        rw [ctrlWord_toNat]
        linarith [Bool.toNat_le s.doneIe, Bool.toNat_le s.errIe]
    _ ≤ 2 ^ k := Nat.pow_le_pow_right two_pos hk

theorem statusFlags_lt (s : State) : (statusFlags s).toNat < 2 ^ 6 := by
  rw [statusFlags_toNat]
  linarith [Bool.toNat_le s.busy, Bool.toNat_le s.done, Bool.toNat_le s.err, Bool.toNat_le s.tready,
    Bool.toNat_le s.rkv, Bool.toNat_le s.dvalid]

/-- R35: the reserved bits of STATUS read 0. -/
theorem statusWord_getLsbD_reserved {k : Nat} (hk : k = 6 ∨ k = 7 ∨ 12 ≤ k) (s : State) :
    (statusWord s).getLsbD k = false := by
  have flags := statusFlags_lt s
  have code := s.errCode.isLt
  have sum : (statusWord s).toNat = (statusFlags s).toNat + 256 * s.errCode.toNat := by
    rw [statusWord_toNat, statusFlags_toNat]
  obtain hk | hk := or_assoc.mpr hk
  · rw [getLsbD_eq_decide, decide_eq_false_iff_not]
    obtain rfl | rfl := hk <;> omega
  · apply Nat.testBit_lt_two_pow
    calc (statusWord s).toNat < 2 ^ 12 := by omega
      _ ≤ 2 ^ k := Nat.pow_le_pow_right two_pos hk

/-- Settles O12: ignored writes at the read-only offsets; the bits of CTRL and STATUS that no write changes read 0
before and after, and a STATUS write takes only bits 1 and 2. -/
theorem readOnlyRegistersIgnoreWrites : Obligations.ReadOnlyRegistersIgnoreWrites := by
  intro s off v ha
  refine ⟨fun h => memWrite_of_isReadOnlyOffset ha h v s, ?ctrl, ?status⟩
  case ctrl =>
    rintro rfl -
    refine ⟨_, memWrite_ctrl v s, fun k hk _ => ?_⟩
    rw [ctrlWord_getLsbD_of_two_le hk, ctrlWord_getLsbD_of_two_le hk]
  case status =>
    rintro rfl
    refine ⟨_, memWrite_status v s, rfl, rfl, rfl, rfl, fun hv => ?errCode, fun k hk => ?bits⟩
    case errCode => exact if_neg (ne_true_of_eq_false hv)
    case bits =>
      have reserved : k = 6 ∨ k = 7 ∨ 12 ≤ k := by omega
      rw [statusWord_getLsbD_reserved reserved, statusWord_getLsbD_reserved reserved]

end Sys2Proof.Proofs
end

section
/-! PROOFS, the cycle. A cycle's events are the reset alone, or the host access and then the completion; the run
of the step takes them in this order and ends where the cycle ends. -/

namespace Sys2Proof.Proofs

open Sys2Proof Sys2Proof.Machine Sys2Proof.Claims

/-! ## An access and the environment's events -/

theorem afterRead_with_inputs (s : State) (r : Reg) (es : List Event) :
    afterRead { s with inputs := es } r = { afterRead s r with inputs := es } := by
  change (if readsOpen s r = true then _ else _) = _
  unfold afterRead
  split <;> rfl

theorem raiseCmdError_with_inputs (e : CmdError) (s : State) (es : List Event) :
    raiseCmdError e { s with inputs := es } = { raiseCmdError e s with inputs := es } := by
  rw [raiseCmdError_eq, raiseCmdError_eq]

theorem accept_with_inputs (c : Word) (i : Instr) (s : State) (es : List Event) :
    accept c i { s with inputs := es } = { accept c i s with inputs := es } := by
  unfold accept
  split <;> rfl

theorem writeCmd_with_inputs (c : Word) (s : State) (es : List Event) :
    writeCmd c { s with inputs := es } = { writeCmd c s with inputs := es } := by
  simp only [writeCmd]
  split
  · exact raiseCmdError_with_inputs ..
  · split
    · exact raiseCmdError_with_inputs ..
    · split
      · exact raiseCmdError_with_inputs ..
      · exact accept_with_inputs ..

theorem writeInput_with_inputs {store store' s : State} {es : List Event}
    (hstore : store' = { store with inputs := es }) :
    writeInput store' { s with inputs := es } = { writeInput store s with inputs := es } := by
  subst hstore
  simp only [writeInput]
  split
  · exact raiseCmdError_with_inputs ..
  · rfl

theorem writeCtrl_with_inputs (v : Word) (s : State) (es : List Event) :
    writeCtrl v { s with inputs := es } = { writeCtrl v s with inputs := es } := by
  unfold writeCtrl
  split <;> rfl

/-- A register write does the same to the block whatever the events. -/
theorem writeReg_with_inputs (s : State) (r : Reg) (v : Word) (es : List Event) :
    writeReg { s with inputs := es } r v = { writeReg s r v with inputs := es } := by
  cases r
  case ctrl => exact writeCtrl_with_inputs v s es
  case cmd => exact writeCmd_with_inputs v s es
  case opa | opb | key | st | m => exact writeInput_with_inputs rfl
  all_goals rfl

/-- A host access is performed or is a bus error, whatever the environment does next, which it leaves. -/
theorem hostAccess_with_inputs (off : BitVec 12) (a : HostAccess) (s : State) :
    (∃ t : State, ∀ es, hostAccess off a { s with inputs := es } = .next { t with inputs := es }) ∨
      ∀ es, hostAccess off a { s with inputs := es } = .fault (.busError off) := by
  cases a with
  | read n =>
    cases hl : accessLegal off n with
    | false => exact .inr fun _ => memRead_illegal hl _
    | true =>
      refine .inl ⟨{ afterRead s (regAt off) with reply := .data (readValue s (regAt off)) }, fun es => ?_⟩
      rw [hostAccess, memRead_legal hl, afterRead_with_inputs]
      rfl
  | write n v =>
    cases hl : accessLegal off n with
    | false => exact .inr fun _ => memWrite_illegal hl v _
    | true =>
      refine .inl ⟨{ writeReg s (regAt off) v with reply := .ack }, fun es => ?_⟩
      rw [hostAccess, memWrite_legal hl, writeReg_with_inputs]

/-! ## The end of a cycle -/

/-- What an outcome of a cycle is for the block. -/
def blockOutcome : Host.Outcome Clocked Fault Refusal → Result
  | .next c => .next c.block
  | .fault r => .fault r
  | .refused r => .refused r

/-- R145, R166: the core's turn when the latency is over, and nothing before. -/
theorem blockOutcome_endCycle (left : Nat) (s : State) :
    blockOutcome (endCycle left s) = if left ≤ 1 then coreTurn s else .next s := by
  unfold endCycle coreTurn
  cases s.busy
  case false => simp [blockOutcome]
  case true =>
    by_cases hl : left ≤ 1
    · cases h : coreStep s <;> simp [hl, blockOutcome]
    · simp [hl, blockOutcome]

/-- What was in flight when the cycle began completes in it. -/
def Completes (e : CycleInput) (c : Clocked) : Prop :=
  c.block.busy = true ∧ c.left ≤ 1 ∧ softResets e.access = false

/-- The events of a cycle after its access, as `cycleScript` gives them. -/
def completionEvents (e : CycleInput) (c : Clocked) : List Event :=
  if c.block.busy = true ∧ c.left ≤ 1 ∧ softResets e.access = false then [.complete] else []

section
variable {e : CycleInput} {c : Clocked} {s : State} (hr : e.reset = false)
include hr

/-- R93: a cycle with a completion ends in the core's turn after the access. -/
theorem blockOutcome_cycle_of_completes (ha : cycleAccess e.access c.block = .next s) (h : Completes e c) :
    blockOutcome (cycle e c) = coreTurn s := by
  obtain ⟨hb, hl, hs⟩ := h
  have hcycle : cycle e c = endCycle c.left s := by simp [cycle, hr, ha, hs, hb]
  rw [hcycle, blockOutcome_endCycle, if_pos hl]

/-- A cycle without a completion ends with the access: the block was idle, its latency is not over, or it is
reset. -/
theorem blockOutcome_cycle_of_not_completes (ha : cycleAccess e.access c.block = .next s)
    (h : ¬Completes e c) : blockOutcome (cycle e c) = .next s := by
  by_cases hstart : (softResets e.access || (!c.block.busy && s.busy)) = true
  · have hcycle : cycle e c = .next (start s) := by simp [cycle, hr, ha, hstart]
    rw [hcycle]
    rfl
  · have hcycle : cycle e c = endCycle c.left s := by simp [cycle, hr, ha, hstart]
    rw [hcycle, blockOutcome_endCycle]
    split
    case isTrue hl =>
      obtain ⟨hs, hidle⟩ : softResets e.access = false ∧ (c.block.busy = false → s.busy = false) := by
        simpa using hstart
      have hb : c.block.busy = false := Bool.eq_false_iff.mpr fun hb => h ⟨hb, hl, hs⟩
      exact coreTurn_idle (hidle hb)
    case isFalse => rfl

/-- R82: a cycle whose access is a bus error stops with it. -/
theorem blockOutcome_cycle_of_fault {f : Fault} (ha : cycleAccess e.access c.block = .fault f) :
    blockOutcome (cycle e c) = .fault f := by
  simp [cycle, hr, ha, blockOutcome]

end

/-! ## The run of a cycle's events -/

theorem step_with_event (e : Event) (es : List Event) (s : State) :
    step { s with inputs := e :: es } = takeEvent e { s with inputs := es } := step_cons rfl

/-- After the access the run takes the completion, if there is one, and is where the cycle ends. -/
theorem run_completionEvents {e : CycleInput} {c : Clocked} {s : State} (hr : e.reset = false)
    (ha : cycleAccess e.access c.block = .next s) :
    core.run (completionEvents e c).length { s with inputs := completionEvents e c ++ s.inputs } =
      blockOutcome (cycle e c) := by
  by_cases h : Completes e c
  · rw [show completionEvents e c = [.complete] from if_pos h, blockOutcome_cycle_of_completes hr ha h]
    exact (run_one _).trans (step_with_event .complete s.inputs s)
  · rw [show completionEvents e c = [] from if_neg h, blockOutcome_cycle_of_not_completes hr ha h]
    exact run_zero s

/-- R93: a cycle with an access takes it first; a bus error stops the run as it stops the cycle. -/
theorem run_access_completionEvents {e : CycleInput} {c : Clocked} {off : BitVec 12} {a : HostAccess}
    (hr : e.reset = false) (ha : e.access = some (off, a)) :
    core.run ((completionEvents e c).length + 1)
        { c.block with inputs := .host off a :: (completionEvents e c ++ c.block.inputs) } =
      blockOutcome (cycle e c) := by
  have hstep := step_with_event (.host off a) (completionEvents e c ++ c.block.inputs) c.block
  obtain ⟨t, ht⟩ | hfault := hostAccess_with_inputs off a c.block
  · have hcycle : cycleAccess e.access c.block = .next { t with inputs := c.block.inputs } := by
      rw [ha]
      exact ht c.block.inputs
    exact (run_next (hstep.trans (ht _)) _).trans (run_completionEvents hr hcycle)
  · have hcycle : cycleAccess e.access c.block = .fault (.busError off) := by
      rw [ha]
      exact hfault c.block.inputs
    exact (run_fault (hstep.trans (hfault _)) _).trans (blockOutcome_cycle_of_fault hr hcycle).symm

/-- Settles O59: a reset stands alone; otherwise the run takes the access, if there is one, and then the
completion, if there is one. -/
theorem cycleIsARunOfSteps : Obligations.CycleIsARunOfSteps := by
  intro e c
  change core.run (cycleScript e c).length { c.block with inputs := cycleScript e c ++ c.block.inputs } =
    blockOutcome (cycle e c)
  obtain ⟨reset, access⟩ := e
  match reset, access with
  | true, _ => exact (run_one _).trans (step_with_event .reset c.block.inputs c.block)
  | false, none => exact run_completionEvents rfl rfl
  | false, some (off, a) => exact run_access_completionEvents rfl rfl

end Sys2Proof.Proofs
end

section
/-! PROOFS, the command words. The fields of a word as numbers, what the rows of the opcode map have in common, and
the decoder as a function of the fields; the encoder is its inverse on the legal commands. -/

namespace Sys2Proof.Proofs

open Sys2Proof

/-! ## The fields of a word -/

theorem opcodeField_toNat (c : Word) : (opcodeField c).toNat = c.toNat % 256 := by
  simp [opcodeField]

theorem rField_eq (c : Word) : rField c = BitVec.ofNat 4 (c.toNat / 256) := by
  apply BitVec.eq_of_toNat_eq
  simp [rField, Nat.shiftRight_eq_div_pow]

theorem lField_eq (c : Word) : lField c = BitVec.ofNat 6 (c.toNat / 256) := by
  apply BitVec.eq_of_toNat_eq
  simp [lField, Nat.shiftRight_eq_div_pow]

/-- R110: a word is its opcode byte with the argument above it. -/
theorem opcodeField_or_argument (c : Word) : (opcodeField c).setWidth 32 ||| ((c >>> 8) <<< 8) = c := by
  ext k hk
  by_cases h : k < 8
  · simp [opcodeField, h, BitVec.getLsbD_eq_getElem hk]
  · simp [opcodeField, h, Nat.add_sub_of_le (Nat.le_of_not_lt h), BitVec.getLsbD_eq_getElem hk]

/-- R111 to R113: the width of a format's field. -/
def fieldWidth : Format → Nat
  | .n => 0
  | .r => 4
  | .l => 6

/-- R116, step 2: no bit outside the format is set when the argument fits the format's field. -/
theorem unusedBits_eq_zero_iff (f : Format) (c : Word) :
    c &&& ~~~f.usedMask = 0#32 ↔ c.toNat / 256 < 2 ^ fieldWidth f := by
  have kept : c &&& ~~~f.usedMask = 0#32 ↔ c &&& f.usedMask = c := by
    simp [BitVec.eq_of_getElem_eq_iff]
  have mask : f.usedMask.toNat = 2 ^ (8 + fieldWidth f) - 1 := by cases f <;> rfl
  rw [kept, ← BitVec.toNat_inj, BitVec.toNat_and, mask, Nat.and_two_pow_sub_one_eq_mod,
    Nat.mod_eq_iff_lt (by positivity), Nat.div_lt_iff_lt_mul (by decide), pow_add, mul_comm]
  rfl

/-! ## The opcode map -/

/-- The field of a format among R and L, as an argument. -/
def fieldOf : Format → BitVec 4 → BitVec 6 → Word
  | .n, _, _ => 0#32
  | .r, r, _ => r.setWidth 32
  | .l, _, l => l.setWidth 32

/-- Table 30-1: a row's command has the row's opcode, and the field of the row's format as its argument. -/
theorem opcode_and_argument_build :
    ∀ row ∈ opcodeTable, ∀ r l,
      (row.build r l).opcode = row.opcode ∧ (row.build r l).argument = fieldOf row.format r l := by
  simp [opcodeTable, Instr.opcode, Instr.argument, fieldOf]

/-- Table 30-1: only RCON, ADDRK and MD5FINAL carry a field. -/
theorem format_n_of_opcode :
    ∀ row ∈ opcodeTable, row.opcode ≠ 0x07#8 → row.opcode ≠ 0x11#8 → row.opcode ≠ 0x22#8 →
      row.format = .n := by
  simp [opcodeTable]

/-- Table 30-1: a command without a field has no range to leave. -/
theorem wellFormed_of_format_n :
    ∀ row ∈ opcodeTable, row.format = .n → ∀ r l, (row.build r l).wellFormed = true := by
  simp [opcodeTable, Instr.wellFormed]

theorem opcodeRow?_some {op : Byte} {row : OpcodeRow} (h : opcodeRow? op = some row) :
    row ∈ opcodeTable ∧ row.opcode = op :=
  ⟨List.mem_of_find?_eq_some h, by simpa using List.find?_some h⟩

/-- R117: the reserved opcodes. -/
theorem opcodeRow?_eq_none_iff (op : Byte) :
    opcodeRow? op = none ↔
      ¬(op.toNat ≤ 0x07 ∨ (0x10 ≤ op.toNat ∧ op.toNat ≤ 0x19) ∨ (0x20 ≤ op.toNat ∧ op.toNat ≤ 0x22)) := by
  simp [opcodeRow?, opcodeTable, ← BitVec.toNat_inj]
  omega

/-! ## The decoder by cases -/

theorem decode_of_reserved {c : Word} (h : opcodeRow? (opcodeField c) = none) :
    decode c = .error .eopcode := by
  simp only [decode, h]

/-- R116, steps 2 to 4, for a word with an assigned opcode. -/
theorem decode_of_row {c : Word} {row : OpcodeRow} (h : opcodeRow? (opcodeField c) = some row) :
    decode c =
      if c.toNat / 256 < 2 ^ fieldWidth row.format then
        if (row.build (rField c) (lField c)).wellFormed then .ok (row.build (rField c) (lField c))
        else .error .erange
      else .error .ersvd := by
  simp only [decode, h, unusedBits_eq_zero_iff]

/-- A word that decodes to a command does so by a row of the opcode map that the word fits. -/
theorem exists_row_of_decode {c : Word} {i : Instr} (h : decode c = .ok i) :
    ∃ row ∈ opcodeTable, row.opcode = opcodeField c ∧ c.toNat / 256 < 2 ^ fieldWidth row.format ∧
      row.build (rField c) (lField c) = i := by
  cases hrow : opcodeRow? (opcodeField c) with
  | none => simp [decode_of_reserved hrow] at h
  | some row =>
    obtain ⟨mem, op⟩ := opcodeRow?_some hrow
    rw [decode_of_row hrow] at h
    split_ifs at h with fits legal
    exact ⟨row, mem, op, fits, Except.ok.inj h⟩

/-! ## Decoding and encoding -/

/-- R114: the field of a word's format is the whole argument when it fits. -/
theorem fieldOf_eq_argument {f : Format} {c : Word} (h : c.toNat / 256 < 2 ^ fieldWidth f) :
    fieldOf f (rField c) (lField c) = c >>> 8 := by
  apply BitVec.eq_of_toNat_eq
  rw [BitVec.toNat_ushiftRight, Nat.shiftRight_eq_div_pow]
  cases f <;> simp [fieldOf, fieldWidth, rField_eq, lField_eq] at h ⊢ <;> omega

/-- A command that a word decodes to is encoded by that word. -/
theorem encode_of_decode {c : Word} {i : Instr} (h : decode c = .ok i) : encode i = c := by
  obtain ⟨row, mem, op, fits, rfl⟩ := exists_row_of_decode h
  obtain ⟨opcode, argument⟩ := opcode_and_argument_build row mem (rField c) (lField c)
  rw [encode, opcode, argument, op, fieldOf_eq_argument fits, opcodeField_or_argument]

/-- The word of a legal command decodes to it. -/
theorem decode_encode {i : Instr} (h : i.wellFormed = true) : decode (encode i) = .ok i := by
  cases i
  case rcon r => revert r; decide
  case addrk r =>
    have range : r.toNat ≤ 10 := by simpa [Instr.wellFormed, BitVec.le_def] using h
    exact decode_encode_addrk (Nat.lt_succ_of_le range)
  case md5final l => revert l; decide
  all_goals rfl

/-- Settles O1: decoding yields legal commands only and encoding undoes it; decoding undoes the encoding of a legal
command. -/
theorem decodeAgreesWithEncode : Obligations.DecodeAgreesWithEncode := by
  refine fun c i => ⟨fun h => ⟨wellFormed_of_decode h, encode_of_decode h⟩, ?_⟩
  rintro ⟨legal, rfl⟩
  exact decode_encode legal

/-! ## The order of the checks -/

/-- A word whose opcode's format is R, with the largest field that the opcode takes. -/
theorem decode_of_format_r {c : Word} {op : Byte} {command : BitVec 4 → Instr} {limit : Nat}
    (row : opcodeRow? op = some ⟨op, .r, fun r _ => command r⟩) (hop : opcodeField c = op)
    (range : ∀ r, (command r).wellFormed = decide (r.toNat ≤ limit)) :
    decode c =
      if 16 ≤ c.toNat / 256 then .error .ersvd
      else if limit < c.toNat / 256 then .error .erange
      else .ok (command (BitVec.ofNat 4 (c.toNat / 256))) := by
  subst hop
  rw [decode_of_row row]
  by_cases fits : c.toNat / 256 < 16
  · have legal : (command (rField c)).wellFormed = true ↔ ¬limit < c.toNat / 256 := by
      rw [range, decide_eq_true_iff, rField_eq, BitVec.toNat_ofNat, Nat.mod_eq_of_lt fits, not_lt]
    simp only [fieldWidth, Nat.reducePow, fits, legal, ← rField_eq, ← Nat.not_lt, if_true, not_true, if_false,
      ite_not]
  · simp only [fieldWidth, Nat.reducePow, fits, Nat.le_of_not_lt fits, if_true, if_false]

/-- A word with the opcode of MD5FINAL, every field of which is legal. -/
theorem decode_of_md5final {c : Word} (hop : opcodeField c = 0x22#8) :
    decode c =
      if 64 ≤ c.toNat / 256 then .error .ersvd else .ok (.md5final (BitVec.ofNat 6 (c.toNat / 256))) := by
  have row : opcodeRow? (opcodeField c) = some ⟨0x22#8, .l, fun _ l => .md5final l⟩ := by rw [hop]; rfl
  simp only [decode_of_row row, fieldWidth, Nat.reducePow, lField_eq, Instr.wellFormed, if_true, ← Nat.not_lt,
    ite_not]

/-- A word whose opcode's format is N: the row's command, if no bit stands above the opcode. -/
theorem decode_of_format_n {c : Word} {row : OpcodeRow} (h : opcodeRow? (opcodeField c) = some row)
    (hn : row.format = .n) :
    decode c =
      if c.toNat / 256 ≠ 0 then .error .ersvd else .ok (row.build (rField c) (lField c)) := by
  have legal := wellFormed_of_format_n row (opcodeRow?_some h).1 hn (rField c) (lField c)
  simp only [decode_of_row h, hn, fieldWidth, pow_zero, Nat.lt_one_iff, legal, if_true, ite_not]

/-- Settles O2: the branches of R116 by the opcode, each by the decoder's rule for its format. -/
theorem decoderChecksInOrder : Obligations.DecoderChecksInOrder := by
  intro c op arg
  have hop : (opcodeField c).toNat = op := opcodeField_toNat c
  have opcode_eq (n : Byte) (h : op = n.toNat) : opcodeField c = n := BitVec.eq_of_toNat_eq (hop.trans h)
  have opcode_ne {n : Byte} (h : ¬op = n.toNat) : opcodeField c ≠ n := fun e => h (by rw [← hop, e])
  split
  case isTrue reserved => exact decode_of_reserved ((opcodeRow?_eq_none_iff _).mpr (hop ▸ reserved))
  case isFalse assigned =>
  split
  case isTrue h =>
    rw [decode_of_format_r (command := .rcon) (limit := 9) rfl (opcode_eq 0x07#8 h) (fun _ => rfl)]
    split_ifs <;> rfl
  case isFalse rcon =>
  split
  case isTrue h =>
    rw [decode_of_format_r (command := .addrk) (limit := 10) rfl (opcode_eq 0x11#8 h) (fun _ => rfl)]
    split_ifs <;> rfl
  case isFalse addrk =>
  split
  case isTrue h =>
    rw [decode_of_md5final (opcode_eq 0x22#8 h)]
    split_ifs <;> rfl
  case isFalse md5final =>
    obtain ⟨row, hrow⟩ := Option.ne_none_iff_exists'.mp
      (mt (opcodeRow?_eq_none_iff (opcodeField c)).mp (hop ▸ assigned))
    obtain ⟨mem, opcode⟩ := opcodeRow?_some hrow
    have hn : row.format = .n := format_n_of_opcode row mem
      (opcode ▸ opcode_ne rcon) (opcode ▸ opcode_ne addrk) (opcode ▸ opcode_ne md5final)
    obtain ⟨buildOpcode, buildArgument⟩ := opcode_and_argument_build row mem (rField c) (lField c)
    rw [decode_of_format_n hrow hn]
    split_ifs
    · rfl
    · exact ⟨_, rfl, by rw [buildOpcode, opcode, hop], by rw [buildArgument, hn]; rfl⟩

/-! ## The legal words -/

/-- R118: the commands of format N. -/
def fieldlessCommands : List Instr :=
  [.nop, .gfmul, .sbox, .invsbox, .sboxgen, .rotword, .subword, .keyexp, .subbytes, .invsubbytes, .shiftrows,
    .invshiftrows, .mixcolumns, .invmixcolumns, .encrypt, .decrypt, .md5init, .md5block]

/-- Every command, with its field at every value of the field's width. -/
def allCommands : List Instr :=
  fieldlessCommands ++ (List.finRange 16).map (fun r => Instr.rcon (BitVec.ofFin r)) ++
    (List.finRange 16).map (fun r => Instr.addrk (BitVec.ofFin r)) ++
    (List.finRange 64).map (fun l => Instr.md5final (BitVec.ofFin l))

theorem mem_allCommands (i : Instr) : i ∈ allCommands := by
  cases i <;> simp [allCommands, fieldlessCommands]

theorem allCommands_nodup : allCommands.Nodup := by
  simp [allCommands, fieldlessCommands, List.nodup_append, List.nodup_map_iff_inj_on, List.nodup_finRange,
    or_imp, forall_and]

/-- R118: the words of the commands with their fields in range. -/
def legalWords : List Word := (allCommands.filter Instr.wellFormed).map encode

theorem mem_legalWords_iff (c : Word) : c ∈ legalWords ↔ ∃ i, decode c = .ok i := by
  simp [legalWords, mem_allCommands, decodeAgreesWithEncode c]

theorem legalWords_length : legalWords.length = 18 + 10 + 11 + 64 := by
  decide

/-- Two legal commands with the same word are one command. -/
theorem encode_inj_of_wellFormed {i j : Instr} (hi : i.wellFormed = true) (hj : j.wellFormed = true)
    (h : encode i = encode j) : i = j :=
  Except.ok.inj ((decode_encode hi).symm.trans ((congrArg decode h).trans (decode_encode hj)))

theorem legalWords_nodup : legalWords.Nodup :=
  (allCommands_nodup.filter _).map_on fun _ hi _ hj =>
    encode_inj_of_wellFormed (List.of_mem_filter hi) (List.of_mem_filter hj)

/-- Settles O3: the words of the 103 legal commands, which are different because decoding tells them apart. -/
theorem legalWordsNumber103 : Obligations.LegalWordsNumber103 :=
  ⟨legalWords, legalWords_nodup, legalWords_length, mem_legalWords_iff⟩

/-- Settles O4: the legal words are encodings; the other two fail step 2 and step 1 of R116. -/
theorem writtenOutWordsDecode : Obligations.WrittenOutWordsDecode :=
  ⟨decode_encode (i := .gfmul) rfl, decode_encode (i := .mixcolumns) rfl, decode_encode (i := .rcon 9#4) rfl,
    decode_encode (i := .addrk 10#4) rfl, decode_encode (i := .md5final 63#6) rfl,
    decode_of_format_r (op := 0x11#8) (limit := 10) rfl rfl (fun _ => rfl), decode_of_reserved rfl⟩

end Sys2Proof.Proofs
end

section
/-! PROOFS, completion of the commands. What a completion leaves: its end (R145), the frame of each command's write
set (R146), and that no command reads RES (R149). -/

namespace Sys2Proof.Proofs

open Sys2Proof Sys2Proof.Machine Sys2Proof.Claims

/-- Settles O22: the effect of each command, as its arm of `exec` writes it. -/
theorem commandsChangeOnlyTheirWriteSet : Obligations.CommandsChangeOnlyTheirWriteSet := by
  intro i s t h
  cases i
  case rcon =>
    obtain ⟨-, rfl⟩ := execRcon_next h
    rfl
  case addrk =>
    obtain ⟨-, rfl⟩ := execAddrk_next h
    rfl
  all_goals
    obtain rfl := next_inj h
    rfl

/-- R145, R142: the end that all completions share, and that none raises an error. -/
theorem exec_completed {i : Instr} {s t : State} (h : exec i s = .next t) :
    t.busy = false ∧ t.done = true ∧ t.cur = none ∧ t.err = s.err ∧ t.errCode = s.errCode := by
  by_cases hi : i = .sboxgen
  · subst hi
    exact next_inj h ▸ ⟨rfl, rfl, rfl, rfl, rfl⟩
  · obtain ⟨_, _, _, _, _, rfl⟩ | ⟨_, rfl⟩ := exec_next hi h <;> exact ⟨rfl, rfl, rfl, rfl, rfl⟩

/-- Settles O21: a legal command ends in a completion, and NOP is the completion alone. -/
theorem everyCommandCompletes : Obligations.EveryCommandCompletes := by
  refine ⟨fun i s legal => ?_, fun s => rfl⟩
  obtain ⟨effect, he⟩ := exec_eq_complete legal s
  exact ⟨_, he, exec_completed he⟩

/-- Settles O25: RES is at most overwritten, so its old value is kept or lost whole. -/
theorem noCommandReadsRes : Obligations.NoCommandReadsRes := by
  intro i s t v h
  cases i
  case rcon =>
    obtain ⟨range, rfl⟩ := execRcon_next h
    exact execRcon_legal range _
  case addrk =>
    obtain ⟨range, rfl⟩ := execAddrk_next h
    exact execAddrk_legal range _
  all_goals
    obtain rfl := next_inj h
    rfl

/-! ## The write sets and the register window

For each write set of R146: a register outside it reads as before when the set's items take other values. -/

section
variable {r : Reg} (s : State) (hr : r ≠ .status)
include hr

theorem regValue_completed : regValue (completed s) r = regValue s r := by
  cases r
  case status => exact absurd rfl hr
  all_goals rfl

theorem regValue_completed_res (hw : r ≠ .res) (res : Word) :
    regValue { completed s with res := res } r = regValue s r := by
  cases r
  case status => exact absurd rfl hr
  case res => exact absurd rfl hw
  all_goals rfl

theorem regValue_completed_tables (hw : r.isTable = false) (sbox isbox : Vector Byte 256) (tready gen : Bool) :
    regValue { completed s with sbox := sbox, isbox := isbox, tready := tready, gen := gen } r = regValue s r := by
  cases r
  case status => exact absurd rfl hr
  case sbox | isbox => nomatch hw
  all_goals rfl

theorem regValue_completed_st (hw : ∀ j, r ≠ .st j) (st : Vector Word 4) :
    regValue { completed s with st := st } r = regValue s r := by
  cases r
  case status => exact absurd rfl hr
  case st => exact absurd rfl (hw _)
  all_goals rfl

theorem regValue_completed_rk (hw : ∀ j, r ≠ .rk j) (rk : Vector Word 44) (rkv : Bool) :
    regValue { completed s with rk := rk, rkv := rkv } r = regValue s r := by
  cases r
  case status => exact absurd rfl hr
  case rk => exact absurd rfl (hw _)
  all_goals rfl

theorem regValue_completed_st_rk (hst : ∀ j, r ≠ .st j) (hrk : ∀ j, r ≠ .rk j) (st : Vector Word 4)
    (rk : Vector Word 44) (rkv : Bool) :
    regValue { completed s with st := st, rk := rk, rkv := rkv } r = regValue s r := by
  cases r
  case status => exact absurd rfl hr
  case st => exact absurd rfl (hst _)
  case rk => exact absurd rfl (hrk _)
  all_goals rfl

theorem regValue_completed_md5 (hh : ∀ k, r ≠ .h k) (hlo : r ≠ .cntLo) (hhi : r ≠ .cntHi) (h : Vector Word 4)
    (cnt : BitVec 64) (dvalid : Bool) :
    regValue { completed s with h := h, cnt := cnt, dvalid := dvalid } r = regValue s r := by
  cases r
  case status => exact absurd rfl hr
  case h => exact absurd rfl (hh _)
  case cntLo => exact absurd rfl hlo
  case cntHi => exact absurd rfl hhi
  all_goals rfl

end

/-- Settles O23: by the frame of O22, for each write set. -/
theorem unlistedRegistersReadAsBefore : Obligations.UnlistedRegistersReadAsBefore := by
  intro i s t r h hw hr
  have frame := commandsChangeOnlyTheirWriteSet i s t h
  have unlisted {r' : Reg} (hlisted : writes i r' = true) : r ≠ r' := by
    rintro rfl
    exact Bool.false_ne_true (hw.symm.trans hlisted)
  cases i
  case nop => exact frame ▸ regValue_completed s hr
  case gfmul | sbox | invsbox | rotword | subword | rcon =>
    exact (congrArg (regValue · r) frame).trans (regValue_completed_res s hr (unlisted rfl) t.res)
  case sboxgen => exact (congrArg (regValue · r) frame).trans (regValue_completed_tables s hr hw ..)
  case keyexp => exact (congrArg (regValue · r) frame).trans (regValue_completed_rk s hr (fun _ => unlisted rfl) ..)
  case addrk | subbytes | invsubbytes | shiftrows | invshiftrows | mixcolumns | invmixcolumns =>
    exact (congrArg (regValue · r) frame).trans (regValue_completed_st s hr (fun _ => unlisted rfl) t.st)
  case encrypt | decrypt =>
    exact (congrArg (regValue · r) frame).trans
      (regValue_completed_st_rk s hr (fun _ => unlisted rfl) (fun _ => unlisted rfl) ..)
  case md5init | md5block | md5final =>
    exact (congrArg (regValue · r) frame).trans
      (regValue_completed_md5 s hr (fun _ => unlisted rfl) (unlisted rfl) (unlisted rfl) ..)

end Sys2Proof.Proofs
end

section
/-! PROOFS, accesses while BUSY = 1. Which writes raise EBUSY (R148), and which reads are open (R147, R167). -/

namespace Sys2Proof.Proofs

open Sys2Proof Sys2Proof.Machine Sys2Proof.Safety

/-! ## Writes -/

/-- R148: CMD and the input registers take no write while BUSY = 1. -/
theorem memWrite_busy {s : State} (hb : s.busy = true) (v : Word) {r : Reg}
    (hr : r = .cmd ∨ r = .opa ∨ r = .opb ∨ (∃ j, r = .key j) ∨ (∃ j, r = .st j) ∨ ∃ k, r = .m k) :
    memWrite r.offset 4 v s = .next { s with
      err := true, errCode := if s.err = true then s.errCode else 1#4, reply := .ack } := by
  have ebusy : writeReg s r v = raiseCmdError .ebusy s := by
    obtain rfl | rfl | rfl | ⟨_, rfl⟩ | ⟨_, rfl⟩ | ⟨_, rfl⟩ := hr <;> exact if_pos hb
  rw [memWrite_offset, ebusy, raiseCmdError_eq]
  rfl

/-- Table 10-1: the words of KEY, ST and M fill the offsets 0x020 to 0x07C. -/
theorem exists_input_offset {off : BitVec 12} (ha : off.toNat % 4 = 0) (lo : 0x020 ≤ off.toNat)
    (hi : off.toNat < 0x080) :
    ∃ r : Reg, r.offset = off ∧
      (r = .opa ∨ r = .opb ∨ (∃ j, r = .key j) ∨ (∃ j, r = .st j) ∨ ∃ k, r = .m k) := by
  obtain ⟨r, hr, rfl⟩ := exists_offset ha (by unfold InReservedRange; omega)
  exact ⟨r, rfl, input_of_offset (by omega) hi (by rintro rfl; exact absurd lo (by decide)) hr⟩

/-- Settles O14: an aligned offset is that of CMD, of an input register, of CTRL, of STATUS, or read-only. -/
theorem busyWritesRaiseEbusy : Obligations.BusyWritesRaiseEbusy := by
  intro s off v hb ha
  refine ⟨fun h => ?input, ?ctrl, ?status, fun h => memWrite_of_isReadOnlyOffset ha h v s⟩
  case input =>
    obtain rfl | rfl | rfl | ⟨lo, hi⟩ := h
    · exact memWrite_busy hb v (r := .cmd) (.inl rfl)
    · exact memWrite_busy hb v (r := .opa) (.inr (.inl rfl))
    · exact memWrite_busy hb v (r := .opb) (.inr (.inr (.inl rfl)))
    · obtain ⟨r, rfl, hr⟩ := exists_input_offset ha lo hi
      exact memWrite_busy hb v (.inr hr)
  case ctrl =>
    rintro rfl
    exact memWrite_ctrl v s
  case status =>
    rintro rfl
    exact memWrite_status v s

/-! ## Reads -/

/-- R147, R167: what is in flight works on `r`: the register is in the write set of the command in flight, or it is
a table entry during a generation. -/
def InFlight (s : State) (r : Reg) : Prop :=
  (∃ c i, s.cur = some c ∧ decode c = .ok i ∧ writes i r = true) ∨ (s.gen = true ∧ r.isTable = true)

theorem inFlightWrites_iff (s : State) (r : Reg) :
    inFlightWrites s r = true ↔
      (∃ c i, s.cur = some c ∧ decode c = .ok i ∧ writes i r = true) ∨
        (s.cur = none ∧ s.gen = true ∧ r.isTable = true) := by
  cases hc : s.cur with
  | none => simp [inFlightWrites, hc]
  | some c => cases hd : decode c <;> simp [inFlightWrites, hc, hd]

/-- R36: in a sound state a command is in flight only while BUSY = 1. -/
theorem busy_of_cur {s : State} {c : Word} (hs : Sound s) (hc : s.cur = some c) : s.busy = true := by
  by_contra hb
  simp [(hs.idle (by simpa using hb)).1] at hc

/-- In a sound state the open reads are those of what is in flight: BUSY is 1 if a command is, and TREADY is 0 exactly
during a generation. -/
theorem readsOpen_iff_of_sound {s : State} (hs : Sound s) (r : Reg) : readsOpen s r = true ↔ InFlight s r := by
  have opened : readsOpen s r = true ↔
      (s.busy = true ∧ inFlightWrites s r = true) ∨ (s.gen = true ∧ r.isTable = true) := by
    simp [readsOpen, hs.tready]
  rw [opened, inFlightWrites_iff]
  constructor
  · rintro (⟨-, command | ⟨-, generation⟩⟩ | generation)
    · exact .inl command
    · exact .inr generation
    · exact .inr generation
  · rintro (⟨c, i, hc, command⟩ | generation)
    · exact .inl ⟨busy_of_cur hs hc, .inl ⟨c, i, hc, command⟩⟩
    · exact .inr generation

/-- An open read returns a free value, of a byte's size if it is a table entry (R147, R167). -/
theorem memRead_of_open {s : State} {off : BitVec 12} (ha : off.toNat % 4 = 0)
    (h : readsOpen s (regAt off) = true) :
    memRead off 4 s = .next { s with reply := .data (openValue s (regAt off)), draws := s.draws + 1 } := by
  rw [memRead_legal (accessLegal_aligned ha), afterRead, readValue, if_pos h, if_pos h]

theorem openValue_lt_of_isTable {s : State} {r : Reg} (h : r.isTable = true) : (openValue s r).toNat < 256 := by
  rw [openValue, if_pos h, zext32, BitVec.toNat_setWidth]
  exact (Nat.mod_le _ _).trans_lt (BitVec.isLt _)

/-- Settles O7: an access to an aligned offset is legal, and `readsOpen` decides what it returns. -/
theorem readsAreOpenOnlyInTheWriteSet : Obligations.ReadsAreOpenOnlyInTheWriteSet := by
  intro s off hs ha
  change (InFlight s (regAt off) → _) ∧ (¬InFlight s (regAt off) → _)
  rw [← readsOpen_iff_of_sound hs]
  refine ⟨fun h => ⟨_, memRead_of_open ha h, openValue_lt_of_isTable⟩, fun h => ?_⟩
  rw [memRead_legal (accessLegal_aligned ha), afterRead, readValue, if_neg h, if_neg h]

end Sys2Proof.Proofs
end

section
/-! PROOFS, the issue of a command. The write to CMD is the one way to put a command in flight (R141, R143), and the
core's turn then runs it (R145). -/

namespace Sys2Proof.Proofs

open Sys2Proof Sys2Proof.Machine

/-! ## The checks and the acceptance -/

/-- R141, R201: the check of RKV is made for ADDRK alone. -/
theorem needsRoundKeys_iff (i : Instr) : needsRoundKeys i = true ↔ ∃ r, i = .addrk r := by
  cases i
  case addrk r => exact ⟨fun _ => ⟨r, rfl⟩, fun _ => rfl⟩
  all_goals exact ⟨nofun, nofun⟩

/-- R143: acceptance, field by field. -/
theorem accept_eq (c : Word) (i : Instr) (s : State) :
    accept c i s = { s with
      cur := some c, busy := true, done := false
      tready := if i = .sboxgen then false else s.tready
      gen := if i = .sboxgen then true else s.gen } := by
  by_cases hi : i = .sboxgen <;> simp [accept, hi]

section
variable {c : Word} {i : Instr} {s : State}

theorem writeCmd_busy (hb : s.busy = true) : writeCmd c s = raiseCmdError .ebusy s := if_pos hb

theorem writeCmd_illegal {e : CmdError} (hb : ¬s.busy = true) (hd : decode c = .error e) :
    writeCmd c s = raiseCmdError e s := by
  rw [writeCmd, if_neg hb, hd]

theorem writeCmd_legal (hb : ¬s.busy = true) (hd : decode c = .ok i) :
    writeCmd c s = if (∃ r, i = .addrk r) ∧ s.rkv = false then raiseCmdError .enork s else accept c i s := by
  simp only [writeCmd, if_neg hb, hd, Bool.and_eq_true, needsRoundKeys_iff, Bool.not_eq_true']

theorem memWrite_cmd (c : Word) (s : State) :
    memWrite 0x00C#12 4 c s = .next { writeCmd c s with reply := .ack } := memWrite_offset .cmd c s

/-- R141: a legal command whose round keys are valid if it needs them is accepted in an idle block. -/
theorem writeCmd_accepts (hb : s.busy = false) (hd : decode c = .ok i) (hk : ∀ r, i = .addrk r → s.rkv = true) :
    writeCmd c s = accept c i s := by
  rw [writeCmd_legal (by simp [hb]) hd, if_neg]
  rintro ⟨⟨r, hr⟩, hrkv⟩
  exact Bool.false_ne_true (hrkv.symm.trans (hk r hr))

end

/-! ## Nothing else starts a command -/

/-- R141: only the write of its word to CMD puts a command in flight. -/
theorem cur_of_writeReg {s : State} {r : Reg} {v c : Word} (h : (writeReg s r v).cur = some c) :
    s.cur = some c ∨ (r = .cmd ∧ v = c) := by
  have input {store : State} (h : (writeInput store s).cur = some c) (hstore : store.cur = s.cur) :
      s.cur = some c := by
    obtain ⟨-, he⟩ | ⟨-, he⟩ := writeInput_cases store s
    · simpa [he] using h
    · rwa [he, hstore] at h
  cases r
  case ctrl =>
    rw [writeReg, writeCtrl] at h
    split at h
    · nomatch h
    · exact .inl h
  case cmd =>
    rw [writeReg] at h
    obtain ⟨e, he⟩ | ⟨i, -, -, -, he⟩ := writeCmd_cases v s
    · exact .inl (by simpa [he] using h)
    · exact .inr ⟨rfl, by simpa [he] using h⟩
  case opa | opb | key | st | m => exact .inl (input h rfl)
  all_goals exact .inl h

/-- Table 10-1: an aligned offset at which a register is found is that register's own. -/
theorem offset_regAt {off : BitVec 12} (ha : off.toNat % 4 = 0) (h : regAt off ≠ .reserved) :
    (regAt off).offset = off := by
  obtain ⟨r, -, rfl⟩ := exists_offset ha fun hrsv => h (regAt_of_inReservedRange hrsv)
  rw [regAt_offset]

theorem cur_of_hostAccess {off : BitVec 12} {a : HostAccess} {s t : State} {c : Word}
    (h : hostAccess off a s = .next t) (ht : t.cur = some c) :
    s.cur = some c ∨ (off = 0x00C#12 ∧ a = .write 4 c) := by
  obtain ⟨n, -, -, rfl⟩ | ⟨n, v, rfl, legal, rfl⟩ := hostAccess_next h
  · exact .inl ((afterRead_cur _ _).symm.trans ht)
  · obtain ⟨rfl, ha⟩ := accessLegal_iff.mp legal
    refine (cur_of_writeReg ht).imp_right fun ⟨hr, hv⟩ => ⟨?_, congrArg _ hv⟩
    have hoff := offset_regAt ha (by simp [hr])
    exact hoff.symm.trans (congrArg Reg.offset hr)

/-- R145: no turn of the core puts a command in flight. -/
theorem cur_of_coreTurn {s t : State} {c : Word} (h : coreTurn s = .next t) (ht : t.cur = some c) :
    s.cur = some c := by
  obtain ⟨-, rfl⟩ | ⟨-, hstep⟩ := coreTurn_next h
  · exact ht
  · obtain ⟨-, -, rfl⟩ | ⟨_, i, -, -, he⟩ := coreStep_next hstep
    · exact ht
    · obtain ⟨-, -, hcur, -⟩ := exec_completed he
      nomatch hcur.symm.trans ht

/-- Settles O15: the checks of `writeCmd` one by one, and what the other accesses leave in flight. -/
theorem cmdWriteChecksThenAccepts : Obligations.CmdWriteChecksThenAccepts := by
  refine ⟨fun s c => ?checks, fun s t off a c => cur_of_hostAccess, fun s t c => cur_of_coreTurn⟩
  rw [memWrite_cmd]
  by_cases hb : s.busy = true
  · rw [writeCmd_busy hb, if_pos hb]
  · rw [if_neg hb]
    cases hd : decode c with
    | error e => rw [writeCmd_illegal hb hd]
    | ok i => rw [writeCmd_legal hb hd, accept_eq]

/-! ## The command in flight runs -/

/-- R145: the core's turn while a command is in flight is that command's meaning. -/
theorem coreTurn_command {s : State} {c : Word} {i : Instr} (hb : s.busy = true) (hc : s.cur = some c)
    (hd : decode c = .ok i) : coreTurn s = exec i s := (if_pos hb).trans (coreStep_command hc hd)

/-- Settles O18: with no event, and at the event `complete`, the step is the core's turn. -/
theorem stepRunsTheCommandInFlight : Obligations.StepRunsTheCommandInFlight := fun _ _ _ hb hc hd =>
  ⟨fun hin => (step_nil hin).trans (coreTurn_command hb hc hd),
    fun _ hin => (step_cons hin).trans (coreTurn_command hb hc hd)⟩

/-- R141, R143: the step that issues a command in an idle block, where no check stops it. -/
theorem step_issues {s : State} {i : Instr} {es : List Event} (hb : s.busy = false) (legal : i.wellFormed = true)
    (hk : ∀ r, i = .addrk r → s.rkv = true) (hin : s.inputs = cmd i :: es) :
    step s = .next { accept (encode i) i s with reply := .ack, inputs := es } := by
  refine (step_cons hin).trans ((memWrite_cmd (encode i) _).trans ?_)
  rw [writeCmd_accepts (s := { s with inputs := es }) hb (decode_encode legal) hk, accept_with_inputs]

/-- Settles O19: the first step issues the command, and the second runs it. -/
theorem issuedCommandRunsAtCompletion : Obligations.IssuedCommandRunsAtCompletion := by
  intro s i rest hb legal hk hin
  rw [run_next (step_issues (es := .complete :: rest) hb legal hk hin), run_one, accept_eq]
  exact (stepRunsTheCommandInFlight _ _ i rfl rfl (decode_encode legal)).2 rest rfl

end Sys2Proof.Proofs
end

section
/-! PROOFS, the finite field. The product of bytes and the carry-less product are both sums, under XOR, of multiples
of the first operand chosen by the bits of the second; the laws of the product follow from the linearity of such
sums (R160, R163). -/

namespace Sys2Proof.Proofs

open Sys2Proof Sys2Proof.Machine Sys2Proof.Claims

/-! ## Sums of chosen terms -/

/-- A term chosen by the XOR of two bits is the XOR of the terms each bit chooses. -/
theorem ite_xor_bits {w : Nat} (p q : Bool) (x : BitVec w) :
    (if p ^^ q then x else 0#w) = (if p then x else 0#w) ^^^ (if q then x else 0#w) := by
  cases p <;> cases q <;> simp

/-- The XOR of the terms `f k` over the indices `k` of the list at which `b` has a 1. -/
def xorSelect {w : Nat} (f : Nat → BitVec w) (b : Byte) : List Nat → BitVec w
  | [] => 0#w
  | k :: ks => (if b.getLsbD k then f k else 0#w) ^^^ xorSelect f b ks

section
variable {w : Nat} (f : Nat → BitVec w) (b : Byte)

@[simp] theorem xorSelect_nil : xorSelect f b [] = 0#w := rfl

@[simp] theorem xorSelect_cons (k : Nat) (ks : List Nat) :
    xorSelect f b (k :: ks) = (if b.getLsbD k then f k else 0#w) ^^^ xorSelect f b ks := rfl

/-- A loop that adds the chosen terms to `p` one by one. -/
theorem foldl_eq_xorSelect (p : BitVec w) (ks : List Nat) :
    ks.foldl (fun p k => if b.getLsbD k then p ^^^ f k else p) p = p ^^^ xorSelect f b ks := by
  induction ks generalizing p with
  | nil => simp
  | cons k ks ih =>
    rw [List.foldl_cons, ih, xorSelect_cons]
    split <;> simp [BitVec.xor_assoc]

/-- The terms chosen by the bits from bit 1 on are those chosen by the bits of the shifted byte. -/
theorem xorSelect_map_succ (ks : List Nat) :
    xorSelect f b (ks.map (· + 1)) = xorSelect (fun k => f (k + 1)) (b >>> 1) ks := by
  induction ks with
  | nil => rfl
  | cons k ks ih => simp [ih, BitVec.getLsbD_ushiftRight, Nat.add_comm 1 k]

/-- The sum is linear in the bits that choose. -/
theorem xorSelect_xor (c : Byte) (ks : List Nat) :
    xorSelect f (b ^^^ c) ks = xorSelect f b ks ^^^ xorSelect f c ks := by
  induction ks with
  | nil => simp
  | cons k ks ih =>
    simp only [xorSelect_cons, ih, BitVec.getLsbD_xor, ite_xor_bits]
    ac_rfl

/-- The sum is linear in its terms. -/
theorem xorSelect_xor_terms (g : Nat → BitVec w) (ks : List Nat) :
    xorSelect (fun k => f k ^^^ g k) b ks = xorSelect f b ks ^^^ xorSelect g b ks := by
  induction ks with
  | nil => simp
  | cons k ks ih =>
    have term : (if b.getLsbD k then f k ^^^ g k else 0#w) =
        (if b.getLsbD k then f k else 0#w) ^^^ (if b.getLsbD k then g k else 0#w) := by split <;> simp
    rw [xorSelect_cons, xorSelect_cons, xorSelect_cons, ih, term]
    ac_rfl

theorem xorSelect_congr {f g : Nat → BitVec w} {ks : List Nat} (h : ∀ k ∈ ks, f k = g k) :
    xorSelect f b ks = xorSelect g b ks := by
  induction ks with
  | nil => rfl
  | cons k ks ih =>
    obtain ⟨hk, hks⟩ := List.forall_mem_cons.mp h
    rw [xorSelect_cons, xorSelect_cons, hk, ih hks]

/-- A linear map of a sum is the sum of the mapped terms. -/
theorem map_xorSelect {v : Nat} {g : BitVec w → BitVec v} (zero : g 0#w = 0#v)
    (xor : ∀ x y, g (x ^^^ y) = g x ^^^ g y) (ks : List Nat) :
    g (xorSelect f b ks) = xorSelect (fun k => g (f k)) b ks := by
  induction ks with
  | nil => exact zero
  | cons k ks ih =>
    rw [xorSelect_cons, xor, ih, xorSelect_cons, apply_ite g, zero]

end

/-! ## The product as a sum -/

theorem xtime_xor (a b : Byte) : xtime (a ^^^ b) = xtime a ^^^ xtime b := by
  simp only [xtime, Bool.cond_eq_ite, BitVec.shiftLeft_xor_distrib, BitVec.getLsbD_xor, ite_xor_bits]
  ac_rfl

theorem xtime_iterate_xor (k : Nat) (a b : Byte) : xtime^[k] (a ^^^ b) = xtime^[k] a ^^^ xtime^[k] b :=
  Function.Semiconj₂.iterate xtime_xor k a b

theorem xtime_iterate_zero (k : Nat) : xtime^[k] 0x00#8 = 0x00#8 := Function.iterate_fixed rfl k

/-- The loop of R160 adds to `p` the `x * x^k` at the 1 bits of `y`, `n` of them from bit 0 on. -/
theorem gfLoop_eq (n : Nat) (p x y : Byte) :
    gfLoop n p x y = p ^^^ xorSelect (fun k => xtime^[k] x) y (List.range n) := by
  induction n generalizing p x y with
  | zero => exact BitVec.xor_zero.symm
  | succ n ih =>
    have tail : xorSelect (fun k => xtime^[k] x) y ((List.range n).map (· + 1)) =
        xorSelect (fun k => xtime^[k] (xtime x)) (y >>> 1) (List.range n) := xorSelect_map_succ _ y _
    rw [gfLoop, ih, List.range_succ_eq_map, xorSelect_cons, tail, ← BitVec.xor_assoc]
    cases y.getLsbD 0 <;> simp

/-- R160: the product is the sum of the `a * x^k` at the 1 bits of `b`. -/
theorem gfmul_eq (a b : Byte) : gfmul a b = xorSelect (fun k => xtime^[k] a) b (List.range 8) :=
  (gfLoop_eq 8 0#8 a b).trans BitVec.zero_xor

/-- R160: the carry-less product is the sum of the shifts of `a` by the 1 bits of `b`. -/
theorem clmul_eq (a : BitVec 16) (b : Byte) : clmul a b = xorSelect (a <<< ·) b (List.range 8) :=
  (foldl_eq_xorSelect _ b 0#16 _).trans BitVec.zero_xor

/-! ## The laws of the product -/

theorem gfmul_xor_right (a b c : Byte) : gfmul a (b ^^^ c) = gfmul a b ^^^ gfmul a c := by
  simp only [gfmul_eq, xorSelect_xor]

theorem gfmul_xor_left (a b c : Byte) : gfmul (a ^^^ b) c = gfmul a c ^^^ gfmul b c := by
  simp only [gfmul_eq, xtime_iterate_xor, xorSelect_xor_terms]

theorem gfmul_zero_left (b : Byte) : gfmul 0x00#8 b = 0x00#8 := by
  simpa using gfmul_xor_left 0x00#8 0x00#8 b

theorem gfmul_one_left (b : Byte) : gfmul 0x01#8 b = b := by decide +revert

/-- Multiplication by a power of x commutes with the product. -/
theorem xtime_iterate_gfmul (k : Nat) (a b : Byte) : xtime^[k] (gfmul a b) = gfmul (xtime^[k] a) b := by
  rw [gfmul_eq, gfmul_eq, map_xorSelect _ b (xtime_iterate_zero k) (xtime_iterate_xor k)]
  simp only [← Function.iterate_add_apply, Nat.add_comm k]

/-- A map that is linear in one byte is fixed by its values at the powers of x, of which `b` is the sum. -/
theorem linear_eq_xorSelect {g : Byte → Byte} (zero : g 0x00#8 = 0x00#8) (xor : ∀ x y, g (x ^^^ y) = g x ^^^ g y)
    (b : Byte) : g b = xorSelect (fun k => g (xtime^[k] 0x01#8)) b (List.range 8) := by
  conv_lhs => rw [← gfmul_one_left b, gfmul_eq, map_xorSelect _ b zero xor]

/-- Both products are the sum of the `b * x^k` at the 1 bits of `a`. -/
theorem gfmul_comm (a b : Byte) : gfmul a b = gfmul b a := by
  rw [linear_eq_xorSelect (g := (gfmul · b)) (gfmul_zero_left b) (gfmul_xor_left · · b) a, gfmul_eq b a]
  simp only [← xtime_iterate_gfmul, gfmul_one_left]

/-- Multiplying by `a` the sum that makes `gfmul b c` multiplies each of its terms. -/
theorem gfmul_assoc (a b c : Byte) : gfmul (gfmul a b) c = gfmul a (gfmul b c) := by
  rw [gfmul_comm a (gfmul b c), gfmul_comm a b, gfmul_eq _ c, gfmul_eq b c,
    map_xorSelect (g := (gfmul · a)) _ c (gfmul_zero_left a) (gfmul_xor_left · · a)]
  simp only [xtime_iterate_gfmul]

theorem gfmul_one_right (a : Byte) : gfmul a 0x01#8 = a := (gfmul_comm a _).trans (gfmul_one_left a)

/-- R160: the product by the polynomial x. -/
theorem gfmul_two_right (a : Byte) : gfmul a 0x02#8 = xtime a :=
  calc gfmul a 0x02#8 = gfmul (xtime 0x01#8) a := gfmul_comm a _
    _ = xtime (gfmul 0x01#8 a) := (xtime_iterate_gfmul 1 _ a).symm
    _ = xtime a := congrArg xtime (gfmul_one_left a)

/-! ## The inverse

Squaring is linear and its eighth iterate fixes the powers of x, so `a^256 = a`. The 255th power of `a` is then
idempotent, and it is not 0 unless `a` is. -/

def square (a : Byte) : Byte := gfmul a a

/-- A step of `inv`, from the n-th power of `a` to the (2n+1)-th. -/
def squareTimes (a y : Byte) : Byte := gfmul (square y) a

theorem inv_eq (a : Byte) : inv a = square ((squareTimes a)^[6] a) := rfl

theorem square_xor (a b : Byte) : square (a ^^^ b) = square a ^^^ square b := by
  simp only [square, gfmul_xor_left, gfmul_xor_right, gfmul_comm b a]
  rw [BitVec.xor_assoc, ← BitVec.xor_assoc (gfmul a b), BitVec.xor_self, BitVec.zero_xor]

theorem square_gfmul (a b : Byte) : square (gfmul a b) = gfmul (square a) (square b) := by
  simp only [square, gfmul_assoc]
  rw [← gfmul_assoc b a b, gfmul_comm b a, gfmul_assoc a b b]

theorem square_iterate_eight (a : Byte) : square^[8] a = a := by
  have powers : ∀ k ∈ List.range 8, square^[8] (xtime^[k] 0x01#8) = xtime^[k] 0x01#8 := by
    decide +kernel
  rw [linear_eq_xorSelect (Function.iterate_fixed rfl 8) (Function.Semiconj₂.iterate square_xor 8) a,
    xorSelect_congr a powers, ← gfmul_eq, gfmul_one_left]

theorem gfmul_squareTimes_iterate (k : Nat) (a : Byte) :
    gfmul ((squareTimes a)^[k] a) a = square^[k + 1] a := by
  induction k with
  | zero => rfl
  | succ k ih =>
    rw [Function.iterate_succ_apply', squareTimes, gfmul_assoc, Function.iterate_succ_apply', ← ih, square_gfmul]
    rfl

theorem eq_zero_or_one_of_idempotent {n : Byte} (h : gfmul n n = n) : n = 0x00#8 ∨ n = 0x01#8 := by
  decide +revert

theorem inv_of_zero : inv 0x00#8 = 0x00#8 := by decide

/-- R163: the 254th power of a byte other than 0 is its inverse. -/
theorem gfmul_inv {a : Byte} (h : a ≠ 0x00#8) : gfmul a (inv a) = 0x01#8 := by
  have power256 : gfmul (gfmul a (inv a)) a = a := by
    rw [gfmul_comm a, inv_eq]
    exact (gfmul_squareTimes_iterate 7 a).trans (square_iterate_eight a)
  have idempotent : gfmul (gfmul a (inv a)) (gfmul a (inv a)) = gfmul a (inv a) := by
    rw [← gfmul_assoc, power256]
  obtain hzero | hone := eq_zero_or_one_of_idempotent idempotent
  · rw [hzero, gfmul_zero_left] at power256
    exact absurd power256.symm h
  · exact hone

/-- R163: the inverse is unique, since an inverse `b` of `a` is `b * (a * inv a)`. -/
theorem gfmul_eq_one_iff {a b : Byte} (h : a ≠ 0x00#8) : gfmul a b = 0x01#8 ↔ b = inv a := by
  constructor
  · intro hab
    calc b = gfmul b (gfmul a (inv a)) := by rw [gfmul_inv h, gfmul_one_right]
      _ = gfmul (gfmul a b) (inv a) := by rw [← gfmul_assoc, gfmul_comm b a]
      _ = inv a := by rw [hab, gfmul_one_left]
  · rintro rfl
    exact gfmul_inv h

theorem inv_involutive : Function.Involutive inv := by
  intro a
  by_cases ha : a = 0x00#8
  · rw [ha, inv_of_zero, inv_of_zero]
  · have hinv : inv a ≠ 0x00#8 := by
      intro h
      have := gfmul_inv ha
      rw [h, gfmul_comm, gfmul_zero_left] at this
      exact absurd this (by decide)
    exact ((gfmul_eq_one_iff hinv).mp ((gfmul_comm _ a).trans (gfmul_inv ha))).symm

/-- Settles O27: the laws of the sum that the product is, and the unique inverse. -/
theorem gfmulFieldLaws : Obligations.GfmulFieldLaws :=
  ⟨gfmul_comm, gfmul_assoc, gfmul_xor_right,
    fun a => ⟨(gfmul_comm a _).trans (gfmul_zero_left a), gfmul_one_right a, gfmul_two_right a⟩,
    inv_of_zero, fun _ _ => gfmul_eq_one_iff⟩

/-! ## The product modulo x^8 + x^4 + x^3 + x + 1 -/

/-- `p` is the byte that `u` leaves modulo the polynomial 0x11B (R160). -/
def ReducesTo (u : BitVec 16) (p : Byte) : Prop := ∃ q : Byte, u = clmul 0x11B#16 q ^^^ p.setWidth 16

theorem clmul_xor (a : BitVec 16) (b c : Byte) : clmul a (b ^^^ c) = clmul a b ^^^ clmul a c := by
  simp only [clmul_eq, xorSelect_xor]

theorem reducesTo_setWidth (p : Byte) : ReducesTo (p.setWidth 16) p := ⟨0x00#8, BitVec.zero_xor.symm⟩

theorem reducesTo_shiftLeft_modulus {k : Nat} (h : k < 8) : ReducesTo (0x11B#16 <<< k) 0x00#8 :=
  ⟨1#8 <<< k, by interval_cases k <;> decide⟩

theorem reducesTo_xor {u v : BitVec 16} {p q : Byte} (hu : ReducesTo u p) (hv : ReducesTo v q) :
    ReducesTo (u ^^^ v) (p ^^^ q) := by
  obtain ⟨m, rfl⟩ := hu
  obtain ⟨n, rfl⟩ := hv
  refine ⟨m ^^^ n, ?_⟩
  rw [clmul_xor, BitVec.setWidth_xor]
  ac_rfl

/-- R20: `xtime` shifts and takes the modulus away when bit 8 comes out. -/
theorem setWidth_shiftLeft_one (x : Byte) :
    x.setWidth 16 <<< 1 = (xtime x).setWidth 16 ^^^ (if x.getLsbD 7 then 0x11B#16 else 0#16) := by
  decide +revert

theorem reducesTo_shiftLeft (x : Byte) {k : Nat} (h : k ≤ 8) : ReducesTo (x.setWidth 16 <<< k) (xtime^[k] x) := by
  induction k generalizing x with
  | zero => simpa using reducesTo_setWidth x
  | succ k ih =>
    rw [Nat.add_comm, BitVec.shiftLeft_add, setWidth_shiftLeft_one, BitVec.shiftLeft_xor_distrib]
    have modulus : ReducesTo ((if x.getLsbD 7 then 0x11B#16 else 0#16) <<< k) 0x00#8 := by
      split
      · exact reducesTo_shiftLeft_modulus h
      · simpa using reducesTo_setWidth 0x00#8
    simpa [Nat.add_comm 1 k] using reducesTo_xor (ih (xtime x) (by omega)) modulus

theorem reducesTo_xorSelect {f : Nat → BitVec 16} {g : Nat → Byte} (b : Byte) {ks : List Nat}
    (h : ∀ k ∈ ks, ReducesTo (f k) (g k)) : ReducesTo (xorSelect f b ks) (xorSelect g b ks) := by
  induction ks with
  | nil => exact reducesTo_setWidth 0x00#8
  | cons k ks ih =>
    obtain ⟨hk, hks⟩ := List.forall_mem_cons.mp h
    refine reducesTo_xor ?_ (ih hks)
    split
    · exact hk
    · exact reducesTo_setWidth 0x00#8

/-- R160: the loop gives the remainder of the carry-less product, term by term. -/
theorem clmul_reducesTo_gfmul (a b : Byte) : ReducesTo (clmul (a.setWidth 16) b) (gfmul a b) := by
  rw [clmul_eq, gfmul_eq]
  exact reducesTo_xorSelect b fun k hk => reducesTo_shiftLeft a (Nat.le_of_lt (List.mem_range.mp hk))

theorem lowByte_eq_setWidth (v : Word) : lowByte v = v.setWidth 8 := (BitVec.setWidth_eq_extractLsb' (by decide)).symm

/-- Settles O26: the product of the low bytes is what their carry-less product reduces to. -/
theorem gfmulIsThePolynomialProduct : Obligations.GfmulIsThePolynomialProduct := by
  intro s
  refine ⟨gfmul (opaByte s) (opbByte s), rfl, ?_⟩
  rw [← lowByte_eq_setWidth, ← lowByte_eq_setWidth]
  exact clmul_reducesTo_gfmul _ _

end Sys2Proof.Proofs
end

section
/-! PROOFS, the tables. What the generated tables hold (R163, R169), the commands that look them up, and the two ways
they are generated (R164, R166). -/

namespace Sys2Proof.Proofs

open Sys2Proof Sys2Proof.Machine Sys2Proof.Safety Sys2Proof.Claims

/-! ## The entries -/

/-- R163: the generated SBOX, entry by entry. -/
theorem entry_genSbox (x : Byte) : entry genSbox x = affine (inv x) := by
  simp only [entry, genSbox, allBytes, Vector.getElem_mk, List.getElem_toArray, List.getElem_map,
    List.getElem_range, BitVec.ofNat_toNat, BitVec.setWidth_eq]

/-- The inverse of the affine transform of R163. -/
def affineInverse (q : Byte) : Byte := rotl8 q 1 ^^^ rotl8 q 3 ^^^ rotl8 q 6 ^^^ 0x05#8

theorem affineInverse_affine (q : Byte) : affineInverse (affine q) = q := by decide +revert

theorem entry_genSbox_injective : Function.Injective (entry genSbox) := by
  have h : Function.LeftInverse (inv ∘ affineInverse) (entry genSbox) := fun x => by
    rw [entry_genSbox, Function.comp_apply, affineInverse_affine, inv_involutive]
  exact h.injective

theorem entry_set (t : Vector Byte 256) (i j v : Byte) :
    entry (t.set i.toNat v i.isLt) j = if i = j then v else entry t j := by
  simp only [entry, Vector.getElem_set, BitVec.toNat_inj]

theorem mem_allBytes (x : Byte) : x ∈ allBytes :=
  List.mem_map.mpr ⟨x.toNat, List.mem_range.mpr x.isLt, by simp⟩

/-- R164: no later write of the loop goes to the entry of another byte. -/
theorem entry_foldl_set {table : Vector Byte 256} (inj : Function.Injective (entry table)) (x : Byte) (l : List Byte)
    (t : Vector Byte 256) (h : x ∈ l ∨ entry t (entry table x) = x) :
    entry (l.foldl (fun t x => t.set (entry table x).toNat x (entry table x).isLt) t) (entry table x) = x := by
  induction l generalizing t with
  | nil => simpa using h
  | cons y l ih =>
    refine ih _ ?_
    rw [entry_set]
    by_cases hy : y = x
    · simp [hy]
    · have : entry table y ≠ entry table x := inj.ne hy
      simpa [Ne.symm hy, this] using h

/-- R164: a table made by inverting a table of different entries undoes it. -/
theorem entry_invertTable {table : Vector Byte 256} (inj : Function.Injective (entry table)) (x : Byte) :
    entry (invertTable table) (entry table x) = x :=
  entry_foldl_set inj x allBytes _ (.inl (mem_allBytes x))

/-- R169: ISBOX undoes SBOX. -/
theorem entry_genIsbox_entry_genSbox (x : Byte) : entry genIsbox (entry genSbox x) = x := by
  unfold genIsbox
  exact entry_invertTable entry_genSbox_injective x

/-- R169: SBOX undoes ISBOX, since it is onto the finitely many bytes. -/
theorem entry_genSbox_entry_genIsbox (x : Byte) : entry genSbox (entry genIsbox x) = x := by
  obtain ⟨y, rfl⟩ := Finite.surjective_of_injective entry_genSbox_injective x
  rw [entry_genIsbox_entry_genSbox]

theorem affine_zero : affine 0x00#8 = 0x63#8 := by decide

/-- R169: where SBOX[x] = x XOR c, the inverse `y` of `x` has the inverse `affine y` XOR c. -/
theorem entry_genSbox_ne {c : Byte} (hc : 0x63#8 ≠ c) (h : ∀ y, gfmul (affine y ^^^ c) y ≠ 0x01#8) (x : Byte) :
    entry genSbox x ≠ x ^^^ c := by
  rw [entry_genSbox]
  intro he
  by_cases hx : x = 0x00#8
  · rw [hx, inv_of_zero, BitVec.zero_xor, affine_zero] at he
    exact hc he
  · apply h (inv x)
    rw [he, BitVec.xor_assoc, BitVec.xor_self, BitVec.xor_zero, gfmul_inv hx]

theorem gfmul_affine_ne_one (y : Byte) :
    gfmul (affine y ^^^ 0x00#8) y ≠ 0x01#8 ∧ gfmul (affine y ^^^ 0xFF#8) y ≠ 0x01#8 := by
  decide +revert

/-- R169: no fixed point and no opposite fixed point. -/
theorem entry_genSbox_not_fixed (x : Byte) : entry genSbox x ≠ x ∧ entry genSbox x ≠ x ^^^ 0xFF#8 :=
  ⟨by simpa using entry_genSbox_ne (by decide) (fun y => (gfmul_affine_ne_one y).1) x,
    entry_genSbox_ne (by decide) (fun y => (gfmul_affine_ne_one y).2) x⟩

/-- R16: the rotation as shifts. -/
theorem rotl8_eq_rotl8Shifts (v : Byte) {k : Nat} (h : k < 8) : rotl8 v k = rotl8Shifts v k :=
  BitVec.rotateLeft_eq_rotateLeftAux_of_lt h

theorem affine_eq_affineShifts (q : Byte) : affine q = affineShifts q := by
  simp [affine, affineShifts, rotl8_eq_rotl8Shifts]

/-- Settles O28: the premise makes `y` the inverse of `x`. -/
theorem readyTablesHoldTheAffineInverse : Obligations.ReadyTablesHoldTheAffineInverse := by
  intro s x y hs hready hxy
  obtain ⟨hsbox, hisbox⟩ := hs.tables hready
  have hy : y = inv x := by
    obtain hmul | ⟨rfl, rfl⟩ := hxy
    · have hx : x ≠ 0x00#8 := by
        rintro rfl
        exact absurd ((gfmul_zero_left y).symm.trans hmul) (by decide)
      exact (gfmul_eq_one_iff hx).mp hmul
    · exact inv_of_zero.symm
  rw [hsbox, hisbox, hy, ← affine_eq_affineShifts, ← entry_genSbox]
  exact ⟨rfl, entry_genIsbox_entry_genSbox x⟩

/-- Settles O29: SBOX and ISBOX are inverse maps of the bytes, so both are bijective. -/
theorem readyTablesArePermutations : Obligations.ReadyTablesArePermutations := by
  intro s hs hready
  obtain ⟨hsbox, hisbox⟩ := hs.tables hready
  have left : Function.LeftInverse (entry genIsbox) (entry genSbox) := entry_genIsbox_entry_genSbox
  have right : Function.RightInverse (entry genIsbox) (entry genSbox) := entry_genSbox_entry_genIsbox
  have zero : entry genSbox 0x00#8 = 0x63#8 := by rw [entry_genSbox, inv_of_zero, affine_zero]
  rw [hsbox, hisbox]
  exact ⟨⟨left.injective, right.surjective⟩, ⟨right.injective, left.surjective⟩,
    fun x => ⟨left x, right x⟩, zero, zero ▸ left 0x00#8, entry_genSbox_not_fixed⟩

/-! ## The commands that look up -/

theorem exec_sbox (s : State) :
    exec .sbox s = .next { completed s with res := zext32 (entry s.sbox (opaByte s)) } := rfl

theorem exec_invsbox (s : State) :
    exec .invsbox s = .next { completed s with res := zext32 (entry s.isbox (opaByte s)) } := rfl

theorem lowByte_zext32 (b : Byte) : lowByte (zext32 b) = b := by
  simp [lowByte_eq_setWidth, zext32]

/-- Settles O30: the low byte of the result is the entry, which ISBOX takes back. -/
theorem tableCommandsLookUpTheLowByte : Obligations.TableCommandsLookUpTheLowByte := by
  intro s
  rw [← lowByte_eq_setWidth]
  refine ⟨exec_sbox s, exec_invsbox s, fun hs hready t ht => ⟨_, exec_invsbox _, ?_⟩⟩
  obtain ⟨hsbox, hisbox⟩ := hs.tables hready
  obtain rfl := next_inj ((exec_sbox s).symm.trans ht)
  show zext32 (entry s.isbox (lowByte (zext32 (entry s.sbox (opaByte s))))) = zext32 (opaByte s)
  rw [lowByte_zext32, hsbox, hisbox, entry_genIsbox_entry_genSbox]

/-! ## The generations -/

/-- Settles O31: the write starts the generation; the tables and TREADY it leaves are those of the sound idle
block. -/
theorem sboxgenRegeneratesTheSameTables : Obligations.SboxgenRegeneratesTheSameTables := by
  intro s rest hs hb hin
  have noKeys (r : BitVec 4) (h : Instr.sboxgen = .addrk r) : s.rkv = true := nomatch h
  refine ⟨⟨_, step_issues hb rfl noKeys hin, rfl, rfl⟩, ?_⟩
  obtain ⟨hcur, hgen⟩ := hs.idle hb
  have hready : s.tready = true := by simp [hs.tready, hgen]
  obtain ⟨hsbox, hisbox⟩ := hs.tables hready
  rw [issuedCommandRunsAtCompletion s .sboxgen rest hb rfl noKeys hin]
  -- the type of the outcome in the model's own names, for simp
  show (Host.Outcome.next _ : Result) = .next _
  simp [hcur, hgen, hready, hsbox, hisbox, hb]

/-- R166: the core's turn while the reset-time generation is in flight. -/
theorem coreTurn_generation {s : State} (hb : s.busy = true) (hc : s.cur = none) (hg : s.gen = true) :
    coreTurn s = .next (resetGenComplete s) := (if_pos hb).trans (coreStep_generation hc hg)

/-- R166, R310: a reset and the completion of the generation that it starts. -/
theorem run_reset_complete {s : State} {rest : List Event} (hin : s.inputs = .reset :: .complete :: rest) :
    core.run 2 s = .next (resetGenComplete (resetBlock { s with inputs := rest })) := by
  have started : step s = .next (resetBlock { s with inputs := .complete :: rest }) := step_cons hin
  have completed : step (resetBlock { s with inputs := .complete :: rest }) =
      coreTurn (resetBlock { s with inputs := rest }) :=
    step_cons (e := .complete) rfl
  rw [run_next started, run_one, completed]
  exact coreTurn_generation rfl rfl rfl

/-- R313: the block as a reset and the generation leave it. -/
theorem statusWord_resetGenComplete (s : State) : statusWord (resetGenComplete (resetBlock s)) = 0x00000008#32 := by
  simp [statusWord, flagAt, State.reset]

theorem irq_resetGenComplete (s : State) : irq (resetGenComplete (resetBlock s)) = false := rfl

/-- Settles O32: the reset starts the generation and the core's turn completes it. -/
theorem resetGenerationLeavesTheBlockReady : Obligations.ResetGenerationLeavesTheBlockReady := by
  intro s rest hin
  have run := run_reset_complete hin
  refine ⟨run, fun t ht => ?_⟩
  obtain rfl := next_inj (run.symm.trans ht)
  exact ⟨statusWord_resetGenComplete _, irq_resetGenComplete _⟩

end Sys2Proof.Proofs
end

section
/-! PROOFS, the key schedule. RotWord and SubWord on the bytes of a word (R180, R181), the round constants (R182), and
the key expansion: word `j` of round key `r` is word `4r + j`, so that the recurrence of R183 is the step from a
round key to the next one. -/

namespace Sys2Proof.Proofs

open Sys2Proof Sys2Proof.Machine Sys2Proof.Claims

/-! ## RotWord and SubWord -/

/-- R180: the rotation, on the bytes of the word. -/
theorem rotWord_beword (b0 b1 b2 b3 : Byte) : rotWord (beword b0 b1 b2 b3) = beword b1 b2 b3 b0 := by
  apply BitVec.eq_of_getLsbD_eq
  intro i hi
  simp only [rotWord, rotl32, beword, BitVec.getLsbD_rotateLeft, BitVec.getLsbD_or, BitVec.getLsbD_shiftLeft,
    BitVec.getLsbD_setWidth]
  interval_cases i <;> simp

theorem rotWord_eq (w : Word) : rotWord w = beword (bebyte w 1) (bebyte w 2) (bebyte w 3) (bebyte w 0) := by
  rw [← rotWord_beword, beword_bebyte]

/-- R181: SubWord, on the bytes of the word. -/
theorem subBytesOf_beword (table : Vector Byte 256) (b0 b1 b2 b3 : Byte) :
    subBytesOf table (beword b0 b1 b2 b3) =
      beword (entry table b0) (entry table b1) (entry table b2) (entry table b3) := by
  obtain ⟨h0, h1, h2, h3⟩ := bebyte_beword b0 b1 b2 b3
  rw [subBytesOf, h0, h1, h2, h3]

theorem bebyte_subBytesOf (table : Vector Byte 256) (w : Word) (i : Fin 4) :
    bebyte (subBytesOf table w) i = entry table (bebyte w i) := by
  obtain ⟨h0, h1, h2, h3⟩ := bebyte_beword (entry table (bebyte w 0)) (entry table (bebyte w 1))
    (entry table (bebyte w 2)) (entry table (bebyte w 3))
  match i with
  | 0 => exact h0
  | 1 => exact h1
  | 2 => exact h2
  | 3 => exact h3

/-- R181: SubWord treats every byte alike, so it does not matter where the bytes stand. -/
theorem subBytesOf_rotWord (table : Vector Byte 256) (w : Word) :
    subBytesOf table (rotWord w) = rotWord (subBytesOf table w) := by
  rw [← beword_bebyte w, rotWord_beword, subBytesOf_beword, subBytesOf_beword, rotWord_beword]

theorem exec_rotword (s : State) : exec .rotword s = .next { completed s with res := rotWord s.opa } := rfl

theorem exec_subword (s : State) :
    exec .subword s = .next { completed s with res := subBytesOf s.sbox s.opa } := rfl

/-- Settles O33: the rotation moves the bytes of OPA. -/
theorem rotwordRotatesTheBytes : Obligations.RotwordRotatesTheBytes := by
  intro s
  rw [exec_rotword, rotWord_eq]

/-- Settles O34: SUBWORD is SubWord of OPA, which acts on each byte and commutes with RotWord. -/
theorem subwordActsOnEachByte : Obligations.SubwordActsOnEachByte := fun s =>
  ⟨_, exec_subword s, bebyte_subBytesOf s.sbox s.opa, _, exec_subword _, subBytesOf_rotWord s.sbox s.opa⟩

/-! ## The round constants -/

/-- Table 42-1: the doublings from 0x01. -/
theorem rc_eq_rcTable (r : Fin 10) : rc r.val = rcTable[r] := by decide +revert

theorem exec_rcon {r : BitVec 4} (h : r.toNat < 10) (s : State) :
    exec (.rcon r) s = .next { completed s with res := roundConstant r.toNat } := by
  have range : r ≤ 9#4 := BitVec.le_def.mpr (Nat.le_of_lt_succ h)
  exact execRcon_legal range s

/-- R118: the word of RCON with a field above 9 fails the decoder's range check. -/
theorem decode_encode_rcon_of_range {r : BitVec 4} (h : 10 ≤ r.toNat) :
    decode (encode (.rcon r)) = .error .erange := by
  revert r; decide

/-- Settles O35: RCON's constant is the table's for a field up to 9; a larger one is refused at issue. -/
theorem rconGivesTheRoundConstants : Obligations.RconGivesTheRoundConstants := by
  intro r s
  refine ⟨fun h => ?legal, fun h hb => ?refused⟩
  case legal =>
    have constant : rc r.toNat = rcTable[r.toNat] := rc_eq_rcTable ⟨r.toNat, h⟩
    rw [exec_rcon h, roundConstant, constant, zext32]
  case refused => rw [memWrite_cmd, writeCmd_illegal (by simp [hb]) (decode_encode_rcon_of_range h)]

/-! ## The key expansion -/

section
variable (sbox : Vector Byte 256) (k : Vector Word 4)

/-- R183: the first word of the next round key, whose index is a multiple of 4. -/
theorem nextRoundKey_zero (r : Nat) :
    (nextRoundKey sbox r k)[0] = k[0] ^^^ subBytesOf sbox (rotWord k[3]) ^^^ roundConstant r := rfl

/-- R183: the other words of the next round key. -/
theorem nextRoundKey_succ (r : Nat) {j : Nat} (h : j < 3) :
    (nextRoundKey sbox r k)[j + 1] = k[j + 1] ^^^ (nextRoundKey sbox r k)[j] := by
  match j with
  | 0 | 1 | 2 => rfl

/-- R51: the words of the expansion are those of the round keys, four for each. -/
theorem keyExpansion_getElem {i r j : Nat} (hi : i < 44) (hj : j < 4) (h : i = 4 * r + j) :
    (keyExpansion sbox k)[i] = (roundKey sbox k r)[j] := by
  obtain rfl : r = i / 4 := by omega
  obtain rfl : j = i % 4 := by omega
  simp only [keyExpansion, Vector.getElem_ofFn]

/-- R183: words 0 to 3 are the key. -/
theorem keyExpansion_getElem_key (j : Fin 4) : (keyExpansion sbox k)[j.val]'(by omega) = k[j] :=
  keyExpansion_getElem sbox k _ j.isLt (by omega : j.val = 4 * 0 + j.val)

/-- R183, with round constant `r`: the first word of a round key. -/
theorem keyExpansion_getElem_first {r : Nat} (h : 4 * (r + 1) < 44) :
    (keyExpansion sbox k)[4 * (r + 1)] =
      (keyExpansion sbox k)[4 * r] ^^^ subBytesOf sbox (rotWord (keyExpansion sbox k)[4 * r + 3]) ^^^
        roundConstant r := by
  rw [keyExpansion_getElem sbox k h (r := r + 1) (j := 0) (by decide) rfl,
    keyExpansion_getElem sbox k (i := 4 * r) (by omega) (j := 0) (by decide) rfl,
    keyExpansion_getElem sbox k (i := 4 * r + 3) (by omega) (by decide) rfl]
  exact nextRoundKey_zero sbox _ r

/-- R183: the other words of a round key. -/
theorem keyExpansion_getElem_other {r j : Nat} (hj : j < 3) (h : 4 * (r + 1) + (j + 1) < 44) :
    (keyExpansion sbox k)[4 * (r + 1) + (j + 1)] =
      (keyExpansion sbox k)[4 * r + (j + 1)] ^^^ (keyExpansion sbox k)[4 * (r + 1) + j] := by
  rw [keyExpansion_getElem sbox k h (by omega) rfl,
    keyExpansion_getElem sbox k (i := 4 * r + (j + 1)) (by omega) (by omega) rfl,
    keyExpansion_getElem sbox k (i := 4 * (r + 1) + j) (by omega) (by omega) rfl]
  exact nextRoundKey_succ sbox _ r hj

end

/-- Settles O36: an index from 4 on is that of the first word of a round key or of another one. -/
theorem keyExpansionFollowsTheRecurrence : Obligations.KeyExpansionFollowsTheRecurrence := by
  intro sbox k w
  refine ⟨keyExpansion_getElem_key sbox k, fun i h4 h => ?recurrence⟩
  obtain ⟨r, j, hj, rfl⟩ : ∃ r j, j < 4 ∧ i = 4 * (r + 1) + j := ⟨i / 4 - 1, i % 4, by omega, by omega⟩
  cases j with
  | zero =>
    have round : 4 * (r + 1) / 4 - 1 = r := by omega
    simp only [Nat.add_zero, Nat.mul_mod_right, if_true, round]
    exact keyExpansion_getElem_first sbox k h
  | succ j =>
    rw [if_neg (by omega)]
    have before : 4 * (r + 1) + (j + 1) - 4 = 4 * r + (j + 1) := by omega
    simp only [before]
    exact keyExpansion_getElem_other sbox k (by omega) h

theorem exec_keyexp (s : State) :
    exec .keyexp s = .next { completed s with rk := keyExpansion s.sbox s.key, rkv := true } := rfl

/-- Settles O37: KEYEXP changes neither KEY nor SBOX, so the second one stores the same words. -/
theorem keyexpStoresTheSchedule : Obligations.KeyexpStoresTheSchedule := fun s =>
  ⟨_, exec_keyexp s, rfl, keyExpansion_getElem_key s.sbox s.key, _, exec_keyexp _, rfl⟩

end Sys2Proof.Proofs
end

section
/-! PROOFS, the state transformations. What each of the seven does to a word, a byte or a column of the AES state, and
which of them undo each other (R201 to R207, R213). -/

namespace Sys2Proof.Proofs

open Sys2Proof Sys2Proof.Machine Sys2Proof.Safety Sys2Proof.Claims

/-! ## The commands

Each one writes the transformed ST and nothing else. -/

section
variable (s : State)

theorem exec_addrk {r : BitVec 4} (h : r.toNat < 11) :
    exec (.addrk r) s = .next { completed s with st := addRoundKey s.st s.rk ⟨r.toNat, h⟩ } :=
  execAddrk_legal h s

theorem exec_subbytes : exec .subbytes s = .next { completed s with st := subBytes s.sbox s.st } := rfl

theorem exec_invsubbytes : exec .invsubbytes s = .next { completed s with st := subBytes s.isbox s.st } := rfl

theorem exec_shiftrows : exec .shiftrows s = .next { completed s with st := shiftRows s.st } := rfl

theorem exec_invshiftrows : exec .invshiftrows s = .next { completed s with st := invShiftRows s.st } := rfl

theorem exec_mixcolumns : exec .mixcolumns s = .next { completed s with st := mixColumns s.st } := rfl

theorem exec_invmixcolumns : exec .invmixcolumns s = .next { completed s with st := invMixColumns s.st } := rfl

end

theorem st_ext_words {a b : Vector Word 4} (h : ∀ j : Fin 4, a[j] = b[j]) : a = b :=
  Vector.ext fun j hj => h ⟨j, hj⟩

/-! ## AddRoundKey -/

section
variable (st : Vector Word 4) (w : Vector Word 44) (r : Fin 11)

theorem addRoundKey_getElem (j : Fin 4) : (addRoundKey st w r)[j] = st[j] ^^^ roundKeyWord w r j :=
  words4_get _ j

/-- R201: adding a round key twice changes nothing. -/
theorem addRoundKey_addRoundKey : addRoundKey (addRoundKey st w r) w r = st :=
  st_ext_words fun j => by
    rw [addRoundKey_getElem, addRoundKey_getElem, BitVec.xor_assoc, BitVec.xor_self, BitVec.xor_zero]

end

/-- Settles O39: RK is not written, so the second ADDRK adds the same words. -/
theorem addrkXorsTheRoundKey : Obligations.AddrkXorsTheRoundKey := fun _ s hr =>
  ⟨_, exec_addrk s hr, rfl, addRoundKey_getElem s.st s.rk _,
    _, exec_addrk _ hr, addRoundKey_addRoundKey s.st s.rk _⟩

/-! ## SubBytes -/

/-- R202, R203: each of the sixteen bytes is looked up alone. -/
theorem mat_subBytes (table : Vector Byte 256) (st : Vector Word 4) (i j : Fin 4) :
    mat (subBytes table st) i j = entry table (mat st i j) := by
  rw [mat, subBytes, words4_get, bebyte_subBytesOf, mat]

/-- R213: a table that undoes another one on each byte undoes it on the AES state. -/
theorem subBytes_subBytes {table table' : Vector Byte 256} (h : ∀ x, entry table' (entry table x) = x)
    (st : Vector Word 4) : subBytes table' (subBytes table st) = st :=
  st_ext_mat fun i j => by rw [mat_subBytes, mat_subBytes, h]

/-- Settles O40: in a sound state with TREADY = 1 the tables undo each other. -/
theorem subBytesActsOnEachLane : Obligations.SubBytesActsOnEachLane := by
  intro s
  refine ⟨_, _, exec_subbytes s, exec_invsubbytes s, rfl, rfl, mat_subBytes s.sbox s.st, mat_subBytes s.isbox s.st,
    fun hs hready => ⟨_, exec_invsubbytes _, subBytes_subBytes (fun x => ?_) s.st⟩⟩
  obtain ⟨hsbox, hisbox⟩ := hs.tables hready
  show entry s.isbox (entry s.sbox x) = x
  rw [hsbox, hisbox, entry_genIsbox_entry_genSbox]

/-! ## ShiftRows -/

theorem mat_shiftRows (st : Vector Word 4) (i j : Fin 4) : mat (shiftRows st) i j = mat st i (j + i) :=
  mat_unmat _ i j

theorem mat_invShiftRows (st : Vector Word 4) (i j : Fin 4) : mat (invShiftRows st) i j = mat st i (j - i) :=
  mat_unmat _ i j

theorem invShiftRows_shiftRows (st : Vector Word 4) : invShiftRows (shiftRows st) = st :=
  st_ext_mat fun i j => by rw [mat_invShiftRows, mat_shiftRows, sub_add_cancel]

theorem shiftRows_invShiftRows (st : Vector Word 4) : shiftRows (invShiftRows st) = st :=
  st_ext_mat fun i j => by rw [mat_shiftRows, mat_invShiftRows, add_sub_cancel_right]

/-- R205: the column `i` places to the left of column `j`, modulo 4, as a number. -/
theorem column_sub_eq_ofNat (i j : Fin 4) : j - i = Fin.ofNat 4 (j.val + 4 - i.val) := by decide +revert

/-- Settles O41: the sum and the difference of two columns are taken modulo 4. -/
theorem shiftRowsRotatesTheRows : Obligations.ShiftRowsRotatesTheRows := by
  intro s
  refine ⟨_, _, exec_shiftrows s, exec_invshiftrows s, rfl, rfl, mat_shiftRows s.st, fun i j => ?_,
    ⟨_, exec_invshiftrows _, invShiftRows_shiftRows s.st⟩, _, exec_shiftrows _, shiftRows_invShiftRows s.st⟩
  rw [← column_sub_eq_ofNat]
  exact mat_invShiftRows s.st i j

/-! ## MixColumns -/

/-- Byte `r` of the word made of the bytes of a column is the column's. -/
theorem bebyte_beword_apply (column : Fin 4 → Byte) (r : Fin 4) :
    bebyte (beword (column 0) (column 1) (column 2) (column 3)) r = column r :=
  mat_unmat (fun r _ => column r) r 0

section
variable (c0 c1 c2 c3 : Byte)

/-- The circulant matrix whose first row is `c0 c1 c2 c3`, row by row. -/
def circulant : Vector (Vector Byte 4) 4 :=
  #v[#v[c0, c1, c2, c3], #v[c3, c0, c1, c2], #v[c2, c3, c0, c1], #v[c1, c2, c3, c0]]

/-- The bytes of a column product are the rows of the circulant matrix times the column. -/
theorem bebyte_mulColumn (w : Word) (r : Fin 4) :
    bebyte (mulColumn c0 c1 c2 c3 w) r = matrixTimes (circulant c0 c1 c2 c3) (bebyte w) r :=
  bebyte_beword_apply (matrixTimes (circulant c0 c1 c2 c3) (bebyte w)) r

/-- The product of two circulant matrices is the circulant one of their cyclic convolution. -/
theorem mulColumn_mulColumn (d0 d1 d2 d3 : Byte) (w : Word) :
    mulColumn d0 d1 d2 d3 (mulColumn c0 c1 c2 c3 w) =
      mulColumn (gfmul d0 c0 ^^^ gfmul d1 c3 ^^^ gfmul d2 c2 ^^^ gfmul d3 c1)
        (gfmul d0 c1 ^^^ gfmul d1 c0 ^^^ gfmul d2 c3 ^^^ gfmul d3 c2)
        (gfmul d0 c2 ^^^ gfmul d1 c1 ^^^ gfmul d2 c0 ^^^ gfmul d3 c3)
        (gfmul d0 c3 ^^^ gfmul d1 c2 ^^^ gfmul d2 c1 ^^^ gfmul d3 c0) w := by
  simp only [mulColumn, bebyte_beword, gfmul_xor_right, gfmul_xor_left, gfmul_assoc]
  congr 1 <;> ac_rfl

end

/-- The circulant matrix of 1, 0, 0, 0 is the unit matrix. -/
theorem mulColumn_unit (w : Word) : mulColumn 0x01#8 0x00#8 0x00#8 0x00#8 w = w := by
  simp only [mulColumn, gfmul_one_left, gfmul_zero_left, BitVec.xor_zero, BitVec.zero_xor, beword_bebyte]

/-- R207, R212: the two matrices multiply to the unit matrix. -/
theorem invMixCol_mixCol (w : Word) : invMixCol (mixCol w) = w :=
  (mulColumn_mulColumn _ _ _ _ _ _ _ _ w).trans (mulColumn_unit w)

theorem mixCol_invMixCol (w : Word) : mixCol (invMixCol w) = w :=
  (mulColumn_mulColumn _ _ _ _ _ _ _ _ w).trans (mulColumn_unit w)

/-- Settles O43: both products of the two circulant matrices are the unit matrix. -/
theorem invMixColumnsUndoesMixColumns : Obligations.InvMixColumnsUndoesMixColumns := fun c =>
  ⟨invMixCol_mixCol c, mixCol_invMixCol c⟩

theorem invMixColumns_mixColumns (st : Vector Word 4) : invMixColumns (mixColumns st) = st :=
  st_ext_words fun j => by rw [invMixColumns, mixColumns, words4_get, words4_get, invMixCol_mixCol]

theorem mixColumns_invMixColumns (st : Vector Word 4) : mixColumns (invMixColumns st) = st :=
  st_ext_words fun j => by rw [mixColumns, invMixColumns, words4_get, words4_get, mixCol_invMixCol]

/-- R206: MIX is circulant. -/
theorem mat_mixColumns (st : Vector Word 4) (r j : Fin 4) :
    mat (mixColumns st) r j = matrixTimes mixMatrix (fun k => mat st k j) r := by
  rw [mat, mixColumns, words4_get]
  exact bebyte_mulColumn _ _ _ _ st[j] r

/-- R207: IMIX is circulant. -/
theorem mat_invMixColumns (st : Vector Word 4) (r j : Fin 4) :
    mat (invMixColumns st) r j = matrixTimes invMixMatrix (fun k => mat st k j) r := by
  rw [mat, invMixColumns, words4_get]
  exact bebyte_mulColumn _ _ _ _ st[j] r

/-- Settles O42: both matrices are circulant, and each column is multiplied alone. -/
theorem mixColumnsIsTheMatrixProduct : Obligations.MixColumnsIsTheMatrixProduct := fun s =>
  ⟨_, _, exec_mixcolumns s, exec_invmixcolumns s, rfl, rfl,
    fun r j => ⟨mat_mixColumns s.st r j, mat_invMixColumns s.st r j⟩⟩

end Sys2Proof.Proofs
end

section
/-! PROOFS, the ciphers. The inverse cipher undoes the cipher round by round, from the last one on: between two rounds
the inverse run stands at the state from which the forward run took its next AddRoundKey (R208 to R212). -/

namespace Sys2Proof.Proofs

open Sys2Proof Sys2Proof.Machine Sys2Proof.Safety Sys2Proof.Claims

/-! ## The block commands -/

theorem exec_encrypt (s : State) :
    exec .encrypt s = .next { completed s with
      rk := keyExpansion s.sbox s.key, rkv := true
      st := cipher s.sbox (keyExpansion s.sbox s.key) s.st } := rfl

theorem exec_decrypt (s : State) :
    exec .decrypt s = .next { completed s with
      rk := keyExpansion s.sbox s.key, rkv := true
      st := invCipher s.isbox (keyExpansion s.sbox s.key) s.st } := rfl

/-- Settles O44: RK and RKV are overwritten before they are read. -/
theorem blockCommandsExpandTheKeyThemselves : Obligations.BlockCommandsExpandTheKeyThemselves := fun s =>
  ⟨exec_encrypt s, exec_decrypt s, fun _ _ => ⟨exec_encrypt _, exec_decrypt _⟩⟩

/-! ## The rounds undone -/

/-- Steps `g` that take back the steps `f`, up to a change `p` of the state, take back a run of them in reverse. -/
theorem foldl_reverse_foldl {α β : Type} {f g : β → α → β} {p : β → β} (h : ∀ a b, g (p (f b a)) a = p b)
    (as : List α) (b : β) : as.reverse.foldl g (p (as.foldl f b)) = p b := by
  induction as generalizing b with
  | nil => rfl
  | cons a as ih => rw [List.foldl_cons, List.reverse_cons, List.foldl_append, ih, List.foldl_cons, List.foldl_nil, h]

section
variable {sbox isbox : Vector Byte 256} (w : Vector Word 44)

/-- R210, R211: an inverse round takes back a forward one, seen after SubBytes and ShiftRows. -/
theorem inverseRound_forwardRound (h : ∀ x, entry isbox (entry sbox x) = x) (r : Fin 11) (st : Vector Word 4) :
    inverseRound isbox w (shiftRows (subBytes sbox (forwardRound sbox w st r))) r = shiftRows (subBytes sbox st) := by
  rw [inverseRound, invShiftRows_shiftRows, subBytes_subBytes h, forwardRound, addRoundKey_addRoundKey,
    invMixColumns_mixColumns]

/-- R210, R211: a forward round takes back an inverse one, seen after InvShiftRows and InvSubBytes. -/
theorem forwardRound_inverseRound (h : ∀ x, entry sbox (entry isbox x) = x) (r : Fin 11) (st : Vector Word 4) :
    forwardRound sbox w (subBytes isbox (invShiftRows (inverseRound isbox w st r))) r =
      subBytes isbox (invShiftRows st) := by
  rw [forwardRound, subBytes_subBytes h, shiftRows_invShiftRows, inverseRound, mixColumns_invMixColumns,
    addRoundKey_addRoundKey]

/-- R212: the inverse cipher undoes the cipher under the same round keys. -/
theorem invCipher_cipher (h : ∀ x, entry isbox (entry sbox x) = x) (st : Vector Word 4) :
    invCipher isbox w (cipher sbox w st) = st := by
  have rounds := foldl_reverse_foldl (p := fun st => shiftRows (subBytes sbox st))
    (fun r => inverseRound_forwardRound w h r) fullRounds (addRoundKey st w 0)
  simp only [invCipher, cipher, addRoundKey_addRoundKey, rounds, invShiftRows_shiftRows, subBytes_subBytes h]

/-- R212: the cipher undoes the inverse cipher under the same round keys. -/
theorem cipher_invCipher (h : ∀ x, entry sbox (entry isbox x) = x) (st : Vector Word 4) :
    cipher sbox w (invCipher isbox w st) = st := by
  have rounds := foldl_reverse_foldl (p := fun st => subBytes isbox (invShiftRows st))
    (fun r => forwardRound_inverseRound w h r) fullRounds.reverse (addRoundKey st w 10)
  rw [List.reverse_reverse] at rounds
  simp only [cipher, invCipher, addRoundKey_addRoundKey, rounds, subBytes_subBytes h, shiftRows_invShiftRows]

end

/-- Settles O45: neither command writes KEY or a table, so both make the same round keys. -/
theorem decryptUndoesEncrypt : Obligations.DecryptUndoesEncrypt := by
  intro s hs hready
  obtain ⟨hsbox, hisbox⟩ := hs.tables hready
  have left (x : Byte) : entry s.isbox (entry s.sbox x) = x := by
    rw [hsbox, hisbox, entry_genIsbox_entry_genSbox]
  have right (x : Byte) : entry s.sbox (entry s.isbox x) = x := by
    rw [hsbox, hisbox, entry_genSbox_entry_genIsbox]
  exact ⟨⟨_, _, exec_encrypt s, exec_decrypt _, invCipher_cipher _ left s.st, rfl⟩,
    _, _, exec_decrypt s, exec_encrypt _, cipher_invCipher _ right s.st, rfl⟩

end Sys2Proof.Proofs
end

section
/-! PROOFS, the ciphers command by command. After KEYEXP a run of the commands of a cipher changes ST alone, so such
runs compose like the transformations of ST that they make (R122, R212). -/

namespace Sys2Proof.Proofs

open Sys2Proof Sys2Proof.Machine Sys2Proof.Claims

/-- A run that reached `t` goes on from `t`. -/
theorem run_add {s t : State} {m : Nat} (h : core.run m s = .next t) (n : Nat) :
    core.run (m + n) s = core.run n t := by
  induction m generalizing s with
  | zero => rw [Nat.zero_add, next_inj h]
  | succ m ih =>
    rw [Nat.add_right_comm]
    cases hstep : step s with
    | next u => exact (run_next hstep _).trans (ih ((run_next hstep m).symm.trans h))
    | fault f => nomatch (run_fault hstep m).symm.trans h
    | refused f => nomatch (run_refused hstep m).symm.trans h

/-! ## Runs after the key expansion -/

/-- The idle block `s` with its key expanded, with ST as given and the events `es` left to take. -/
def expandedState (s : State) (st : Vector Word 4) (es : List Event) : State :=
  { completed s with rk := keyExpansion s.sbox s.key, rkv := true, st := st, reply := .ack, inputs := es }

/-- With the key of `s` expanded, issuing the commands `is` one by one takes ST from `st` to `st'` and changes nothing
else, whatever events come after. -/
def RunsTo (s : State) (is : List Instr) (st st' : Vector Word 4) : Prop :=
  ∀ es, core.run (commands is).length (expandedState s st (commands is ++ es)) = .next (expandedState s st' es)

section
variable {s : State} {st st' st'' : Vector Word 4}

theorem RunsTo.append {is js : List Instr} (hi : RunsTo s is st st') (hj : RunsTo s js st' st'') :
    RunsTo s (is ++ js) st st'' := by
  intro es
  rw [commands, List.flatMap_append, List.length_append, List.append_assoc]
  exact (run_add (hi _) _).trans (hj es)

theorem RunsTo.flatMap {α : Type} {round : α → List Instr} {f : Vector Word 4 → α → Vector Word 4}
    (h : ∀ a st, RunsTo s (round a) st (f st a)) (as : List α) (st : Vector Word 4) :
    RunsTo s (as.flatMap round) st (as.foldl f st) := by
  induction as generalizing st with
  | nil => exact fun _ => rfl
  | cons a as ih => exact (h a st).append (ih (f st a))

/-- A command that writes `f` of the block to ST and nothing else, where `f` gives `st'` while it is in flight. -/
theorem RunsTo.command {i : Instr} {f : State → Vector Word 4} (legal : i.wellFormed = true) (hi : i ≠ .sboxgen)
    (effect : ∀ u, exec i u = .next { completed u with st := f u })
    (result : ∀ es, f { expandedState s st es with cur := some (encode i), busy := true, done := false } = st') :
    RunsTo s [i] st st' := by
  intro es
  refine (issuedCommandRunsAtCompletion (expandedState s st (x i ++ es)) i es rfl legal (fun _ _ => rfl) rfl).trans ?_
  rw [if_neg hi, if_neg hi, effect, ← result es]
  rfl

end

/-! ## The rounds -/

section
variable (s : State) (st : Vector Word 4)

theorem runsTo_subbytes : RunsTo s [.subbytes] st (subBytes s.sbox st) :=
  .command rfl nofun exec_subbytes fun _ => rfl

theorem runsTo_invsubbytes : RunsTo s [.invsubbytes] st (subBytes s.isbox st) :=
  .command rfl nofun exec_invsubbytes fun _ => rfl

theorem runsTo_shiftrows : RunsTo s [.shiftrows] st (shiftRows st) :=
  .command rfl nofun exec_shiftrows fun _ => rfl

theorem runsTo_invshiftrows : RunsTo s [.invshiftrows] st (invShiftRows st) :=
  .command rfl nofun exec_invshiftrows fun _ => rfl

theorem runsTo_mixcolumns : RunsTo s [.mixcolumns] st (mixColumns st) :=
  .command rfl nofun exec_mixcolumns fun _ => rfl

theorem runsTo_invmixcolumns : RunsTo s [.invmixcolumns] st (invMixColumns st) :=
  .command rfl nofun exec_invmixcolumns fun _ => rfl

/-- The field of ADDRK that names a round. -/
def roundField (r : Fin 11) : BitVec 4 := BitVec.ofNat 4 r.val

theorem roundField_toNat (r : Fin 11) : (roundField r).toNat = r.val := by decide +revert

theorem roundFields_eq : roundFields = fullRounds.map roundField := rfl

/-- R141, R201: RKV is 1, so ADDRK is accepted. -/
theorem runsTo_addrk (r : Fin 11) :
    RunsTo s [.addrk (roundField r)] st (addRoundKey st (keyExpansion s.sbox s.key) r) := by
  have field := roundField_toNat r
  have range : (roundField r).toNat < 11 := field ▸ r.isLt
  have legal : (Instr.addrk (roundField r)).wellFormed = true := wellFormed_of_decode (decode_encode_addrk range)
  refine .command legal nofun (exec_addrk · range) fun es => ?_
  exact congrArg (addRoundKey st (keyExpansion s.sbox s.key)) (Fin.ext field)

/-- R122, R210: `aes.round` is a full forward round. -/
theorem runsTo_aesRound (r : Fin 11) :
    RunsTo s (aesRound (roundField r)) st (forwardRound s.sbox (keyExpansion s.sbox s.key) st r) :=
  (runsTo_subbytes s st).append <| (runsTo_shiftrows s _).append <| (runsTo_mixcolumns s _).append <|
    runsTo_addrk s _ r

/-- R122, R211: `aes.invround` is a full inverse round. -/
theorem runsTo_aesInvRound (r : Fin 11) :
    RunsTo s (aesInvRound (roundField r)) st (inverseRound s.isbox (keyExpansion s.sbox s.key) st r) :=
  (runsTo_invshiftrows s st).append <| (runsTo_invsubbytes s _).append <| (runsTo_addrk s _ r).append <|
    runsTo_invmixcolumns s _

/-- R122, R210: `aes.encrypt.steps` after its KEYEXP is the cipher. -/
theorem runsTo_cipher :
    RunsTo s ([.addrk 0#4] ++ (roundFields.flatMap aesRound ++ aesLastRound)) st
      (cipher s.sbox (keyExpansion s.sbox s.key) st) := by
  rw [roundFields_eq, List.flatMap_map]
  have first := runsTo_addrk s st 0
  have rounds := RunsTo.flatMap (fun r st => runsTo_aesRound s st r) fullRounds
  have last (st) := (runsTo_subbytes s st).append ((runsTo_shiftrows s _).append (runsTo_addrk s _ 10))
  exact first.append ((rounds _).append (last _))

/-- R122, R211: `aes.decrypt.steps` after its KEYEXP is the inverse cipher. -/
theorem runsTo_invCipher :
    RunsTo s ([.addrk 10#4] ++ (roundFields.reverse.flatMap aesInvRound ++ aesInvLastRound)) st
      (invCipher s.isbox (keyExpansion s.sbox s.key) st) := by
  rw [roundFields_eq, ← List.map_reverse, List.flatMap_map]
  have first := runsTo_addrk s st 10
  have rounds := RunsTo.flatMap (fun r st => runsTo_aesInvRound s st r) fullRounds.reverse
  have last (st) := (runsTo_invshiftrows s st).append ((runsTo_invsubbytes s _).append (runsTo_addrk s _ 0))
  exact first.append ((rounds _).append (last _))

end

/-! ## The key expansion first -/

section
variable {s : State} (hb : s.busy = false) (rest : List Event)
include hb

theorem run_keyexp : core.run 2 { s with inputs := x .keyexp ++ rest } = .next (expandedState s s.st rest) :=
  issuedCommandRunsAtCompletion _ .keyexp rest hb rfl nofun rfl

theorem run_encrypt :
    core.run 2 { s with inputs := x .encrypt ++ rest } =
      .next (expandedState s (cipher s.sbox (keyExpansion s.sbox s.key) s.st) rest) :=
  issuedCommandRunsAtCompletion _ .encrypt rest hb rfl nofun rfl

theorem run_decrypt :
    core.run 2 { s with inputs := x .decrypt ++ rest } =
      .next (expandedState s (invCipher s.isbox (keyExpansion s.sbox s.key) s.st) rest) :=
  issuedCommandRunsAtCompletion _ .decrypt rest hb rfl nofun rfl

theorem run_keyexp_then {is : List Instr} {st' : Vector Word 4} (h : RunsTo s is s.st st') :
    core.run (commands (.keyexp :: is)).length { s with inputs := commands (.keyexp :: is) ++ rest } =
      .next (expandedState s st' rest) := by
  rw [commands, List.flatMap_cons, List.length_append, List.append_assoc]
  exact (run_add (run_keyexp hb _) _).trans (h rest)

end

/-- Settles O46: KEYEXP and then the transformations of the cipher one by one leave what the block command does. -/
theorem stepwiseCipherEqualsTheBlockCommand : Obligations.StepwiseCipherEqualsTheBlockCommand := fun s rest hb =>
  ⟨(run_keyexp_then hb rest (runsTo_cipher s s.st)).trans (run_encrypt hb rest).symm,
    (run_keyexp_then hb rest (runsTo_invCipher s s.st)).trans (run_decrypt hb rest).symm⟩

end Sys2Proof.Proofs
end

section
/-! PROOFS, MD5. What the commands of the engine leave, what a step of the compression computes with, and that the
rotating register indices of R245 stand for registers renamed after every step. -/

namespace Sys2Proof.Proofs

open Sys2Proof Sys2Proof.Machine Sys2Proof.Claims

/-! ## The commands -/

section
variable (s : State)

theorem exec_md5init :
    exec .md5init s = .next { completed s with h := md5Initial, cnt := 0#64, dvalid := false } := rfl

theorem exec_md5block :
    exec .md5block s = .next { completed s with
      h := compress s.h s.m, cnt := s.cnt + 64#64, dvalid := false } := rfl

theorem exec_md5final (l : BitVec 6) :
    exec (.md5final l) s = .next { completed s with
      h := compressAll s.h (padWith (tailBytes s.m l) (s.cnt + l.setWidth 64))
      cnt := s.cnt + l.setWidth 64, dvalid := true } := rfl

end

/-- Settles O47: M is left by both commands, and only H, CNT and DVALID are written besides the completion. -/
theorem md5InitAndBlockResults : Obligations.Md5InitAndBlockResults := fun s =>
  ⟨exec_md5init s, exec_md5block s⟩

/-! ## What a step computes with -/

/-- R242: the index of the message word. -/
theorem md5Index_val (j : Fin 64) : (md5Index j.val).val =
    if j.val < 16 then j.val else if j.val < 32 then (5 * j.val + 1) % 16
      else if j.val < 48 then (3 * j.val + 5) % 16 else (7 * j.val) % 16 := by decide +revert

/-- R244: the four rotation amounts of each sixteen steps. -/
theorem md5S_eq (j : Fin 64) : md5S j =
    (if j.val < 16 then [7, 12, 17, 22] else if j.val < 32 then [5, 9, 14, 20]
      else if j.val < 48 then [4, 11, 16, 23] else [6, 10, 15, 21]).getD (j.val % 4) 0 := by decide +revert

theorem md5S_range (j : Fin 64) : 4 ≤ md5S j ∧ md5S j ≤ 23 := by decide +revert

/-- R241: each bit of the round function is made of the operands' bits at its place. -/
theorem md5Fn_getLsbD (j : Nat) (x y z : Word) (k : Fin 32) :
    (md5Fn j x y z).getLsbD k.val = roundBit j (x.getLsbD k.val) (y.getLsbD k.val) (z.getLsbD k.val) := by
  unfold md5Fn roundBit
  split_ifs <;> simp

/-! ## The digest -/

theorem digest_length (h : Vector Word 4) : (digest h).length = 16 := rfl

theorem digest_getElem? (h : Vector Word 4) (k i : Fin 4) :
    (digest h)[4 * k.val + i.val]? = some (h[k].extractLsb' (8 * i.val) 8) := by
  fin_cases k <;> fin_cases i <;> rfl

/-- Settles O49: one lemma for each thing that the rules list. -/
theorem md5IndicesAndDigestAreAsListed : Obligations.Md5IndicesAndDigestAreAsListed := by
  refine ⟨fun h => ⟨digest_length h, digest_getElem? h⟩, fun j => ?_⟩
  obtain ⟨four_le, le⟩ := md5S_range j
  exact ⟨md5Index_val j, md5S_eq j, four_le, le, md5Fn_getLsbD j.val, md5T_eq_tTable j, fun _ => rfl⟩

/-! ## The registers renamed -/

/-- The register of a role at step `j`, where `j` may be the end 64 of the steps too (R245). -/
def roleRegister (role j : Nat) : Fin 4 := Fin.ofNat 4 (role + 3 * j)

/-- From one step to the next the roles b, c, d pass to the registers of a, b, c. -/
theorem roleRegister_succ (role j : Nat) : roleRegister (role + 1) (j + 1) = roleRegister role j := by
  ext
  simp only [roleRegister, Fin.ofNat]
  omega

/-- From one step to the next role a passes to the register of d. -/
theorem roleRegister_zero_succ (j : Nat) : roleRegister 0 (j + 1) = roleRegister 3 j := by
  ext
  simp only [roleRegister, Fin.ofNat]
  omega

theorem roleRegister_ne_zero {role : Nat} (pos : 0 < role) (lt : role < 4) (j : Nat) :
    roleRegister role j ≠ roleRegister 0 j := by
  simp only [roleRegister, Fin.ofNat, ne_eq, Fin.mk.injEq]
  omega

/-- The working registers by the roles they play at step `j`. -/
def rolesAt (j : Nat) (v : Vector Word 4) : Roles :=
  ⟨v.get (roleRegister 0 j), v.get (roleRegister 1 j), v.get (roleRegister 2 j), v.get (roleRegister 3 j)⟩

/-- After the register of role a is written, the roles of the next step are d, the value written, b and c. -/
theorem rolesAt_succ_set (j : Nat) (v : Vector Word 4) (y : Word) :
    rolesAt (j + 1) (v.set (roleRegister 0 j) y) =
      ⟨(rolesAt j v).d, y, (rolesAt j v).b, (rolesAt j v).c⟩ := by
  have written : (v.set (roleRegister 0 j) y).get (roleRegister 0 j) = y := Vector.getElem_set_self _
  have kept {role : Nat} (pos : 0 < role) (lt : role < 4) :
      (v.set (roleRegister 0 j) y).get (roleRegister role j) = v.get (roleRegister role j) :=
    getElem_set_of_ne v y (roleRegister_ne_zero pos lt j)
  rw [rolesAt, roleRegister_zero_succ, roleRegister_succ 0, roleRegister_succ 1, roleRegister_succ 2, written,
    kept (by decide : 0 < 1) (by decide), kept (by decide : 0 < 2) (by decide), kept (by decide : 0 < 3) (by decide)]
  rfl

/-- R245: a step with rotating indices renames the roles. -/
theorem rolesAt_md5Step (x : Vector Word 16) (v : Vector Word 4) (j : Fin 64) :
    rolesAt (j.val + 1) (md5Step x v j) = renamedStep x (rolesAt j.val v) j :=
  rolesAt_succ_set j.val v _

/-- Steps one after another, from step `j` on. -/
theorem rolesAt_foldl_md5Step (x : Vector Word 16) {js : List (Fin 64)} {j : Nat}
    (consecutive : js.map Fin.val = List.range' j js.length) (v : Vector Word 4) :
    rolesAt (j + js.length) (js.foldl (md5Step x) v) = js.foldl (renamedStep x) (rolesAt j v) := by
  induction js generalizing j v with
  | nil => rfl
  | cons i js ih =>
    obtain ⟨rfl, rest⟩ := List.cons.inj consecutive
    rw [List.length_cons, ← Nat.succ_add_eq_add_succ, List.foldl_cons, List.foldl_cons, ← rolesAt_md5Step]
    exact ih rest _

/-- R246: each role's register added to its accumulator. -/
def addRoles (h : Vector Word 4) (v : Roles) : Vector Word 4 := #v[h[0] + v.a, h[1] + v.b, h[2] + v.c, h[3] + v.d]

/-- At the end of the 64 steps every role is back in its own register. -/
theorem addRoles_rolesAt_end (h v : Vector Word 4) : addRoles h (rolesAt 64 v) = words4 fun k => h[k] + v[k] := rfl

/-- Settles O48: after the 64 steps every role is back in its own register. -/
theorem compressionEqualsTheRenamedForm : Obligations.CompressionEqualsTheRenamedForm := fun h x =>
  (addRoles_rolesAt_end h _).symm.trans <| congrArg (addRoles h) <|
    rolesAt_foldl_md5Step x (js := List.finRange 64) (j := 0) (by decide) h

end Sys2Proof.Proofs
end

section
/-! PROOFS, MD5 padding. How long a padded message and a padded tail are, and what MD5FINAL makes of the message
block (R249 to R253). -/

namespace Sys2Proof.Proofs

open Sys2Proof Sys2Proof.Machine Sys2Proof.Claims

/-! ## The number of zeros and the length -/

theorem padZeros_fills (len : Nat) : (len + 1 + padZeros len) % 64 = 56 := by
  unfold padZeros
  omega

theorem padZeros_least {len z : Nat} (h : z < padZeros len) : (len + 1 + z) % 64 ≠ 56 := by
  unfold padZeros at h
  omega

/-- The number of zeros depends on what the length leaves after whole blocks. -/
theorem padZeros_mod (len : Nat) : padZeros (len % 64) = padZeros len := by
  unfold padZeros
  omega

theorem le64_length (n : BitVec 64) : (le64 n).length = 8 := rfl

theorem padWith_length (bytes : List Byte) (n : BitVec 64) :
    (padWith bytes n).length = bytes.length + 1 + padZeros bytes.length + 8 := by
  simp only [padWith, List.length_append, List.length_replicate, List.length_singleton, le64_length]

/-- R251, R253: the padding fits in the last block begun, or takes one more. -/
theorem padWith_length_eq (bytes : List Byte) (n : BitVec 64) : (padWith bytes n).length =
    64 * if bytes.length % 64 ≤ 55 then bytes.length / 64 + 1 else bytes.length / 64 + 2 := by
  rw [padWith_length, padZeros]
  split <;> omega

/-- Settles O51: the padded length counted in blocks. -/
theorem blockCountFollowsTheLength : Obligations.BlockCountFollowsTheLength := fun msg => by
  rw [padMessage, padWith_length_eq, Nat.mul_div_cancel_left _ (by decide)]

/-- R249: the eight bytes of the bit length. -/
theorem le64_bitLength (len : Nat) : le64 (BitVec.ofNat 64 len <<< 3) =
    (List.range 8).map fun i => BitVec.ofNat 8 (8 * len % 2 ^ 64 / 2 ^ (8 * i)) := by
  refine List.map_congr_left fun i _ => BitVec.eq_of_toNat_eq ?_
  have shifted : (BitVec.ofNat 64 len <<< 3).toNat = 8 * len % 2 ^ 64 := by
    rw [BitVec.toNat_shiftLeft, BitVec.toNat_ofNat, Nat.shiftLeft_eq]
    omega
  rw [BitVec.extractLsb'_toNat, shifted, Nat.shiftRight_eq_div_pow, BitVec.toNat_ofNat]

/-- Settles O50: the zeros are those of `padZeros`. -/
theorem paddingIsTheStandardOne : Obligations.PaddingIsTheStandardOne := by
  intro msg
  refine ⟨padZeros msg.length, ?bytes, padZeros_fills _, fun _ => padZeros_least, ?pos, ?whole⟩
  case bytes => rw [padMessage, padWith, le64_bitLength]
  case pos =>
    rw [padMessage, padWith_length]
    omega
  case whole => rw [padMessage, padWith_length_eq, Nat.mul_mod_right]

/-! ## The tail -/

theorem tailBytes_length (m : Vector Word 16) (l : BitVec 6) : (tailBytes m l).length = l.toNat := by
  have := l.isLt
  simp only [tailBytes, List.length_take, List.length_map, List.length_finRange]
  omega

/-- R48, R251: the bytes of the tail are those of the message block. -/
theorem tailBytes_getElem? (m : Vector Word 16) {l : BitVec 6} {k : Fin 64} (hk : k.val < l.toNat) :
    (tailBytes m l)[k.val]? = some (messageByte m k) := by
  simp [tailBytes, hk]

/-- The tail is any sequence of `l` bytes that agrees with the message block. -/
theorem tailBytes_eq {m : Vector Word 16} {l : BitVec 6} {bytes : List Byte} (hlen : bytes.length = l.toNat)
    (agree : ∀ k : Fin 64, k.val < l.toNat → bytes[k.val]? = some (messageByte m k)) : tailBytes m l = bytes := by
  refine List.ext_getElem ((tailBytes_length m l).trans hlen.symm) fun k hk hk' => ?_
  rw [tailBytes_length] at hk
  have lt : k < 64 := hk.trans l.isLt
  rw [← Option.some_inj, ← List.getElem?_eq_getElem, ← List.getElem?_eq_getElem,
    tailBytes_getElem? m (k := ⟨k, lt⟩) hk, agree ⟨k, lt⟩ hk]

/-- R252: the padded tail is one block or two. -/
theorem padWith_tailBytes_length (m : Vector Word 16) (l : BitVec 6) (n : BitVec 64) :
    (padWith (tailBytes m l) n).length = if l.toNat ≤ 55 then 64 else 128 := by
  have := l.isLt
  rw [padWith_length_eq, tailBytes_length, Nat.mod_eq_of_lt this, Nat.div_eq_of_lt this]
  split <;> rfl

/-- Settles O52: MD5FINAL looks at M through the tail. -/
theorem md5finalUsesOnlyTheTail : Obligations.Md5finalUsesOnlyTheTail := by
  intro l s
  refine ⟨exec_md5final s l, padWith_tailBytes_length s.m l _, fun m' agree => ?_⟩
  have tail : tailBytes m' l = tailBytes s.m l :=
    tailBytes_eq (tailBytes_length s.m l) fun k hk => by rw [tailBytes_getElem? s.m hk, agree k hk]
  refine ⟨_, _, exec_md5final s l, exec_md5final _ l, ?_, rfl⟩
  simp only [tail]

end Sys2Proof.Proofs
end

section
/-! PROOFS, MD5 of a message. Compressing a sequence of bytes goes block by block, so the whole blocks of a message and
its padded tail can be compressed one after another, as the host sequence of R256 does. -/

namespace Sys2Proof.Proofs

open Sys2Proof Sys2Proof.Machine Sys2Proof.Claims

/-! ## Block by block -/

/-- The whole blocks of a byte sequence. -/
def blocks (p : List Byte) : List (Vector Word 16) := (List.range (p.length / 64)).map (blockWords p)

theorem compressAll_eq_foldl (h : Vector Word 4) (p : List Byte) : compressAll h p = (blocks p).foldl compress h :=
  List.foldl_map.symm

theorem blocks_length (p : List Byte) : (blocks p).length = p.length / 64 := by
  rw [blocks, List.length_map, List.length_range]

section
variable {p : List Byte} (p' : List Byte)

/-- A block that lies in the first of two byte sequences. -/
theorem blockWords_append_left {b : Nat} (hb : b < p.length / 64) : blockWords (p ++ p') b = blockWords p b := by
  have byte (k : Fin 16) {i : Nat} (hi : i < 4) :
      (p ++ p').getD (64 * b + 4 * k.val + i) 0x00#8 = p.getD (64 * b + 4 * k.val + i) 0x00#8 :=
    List.getD_append _ _ _ _ (by omega)
  simp only [blockWords, byte, Nat.reduceLT]

/-- A block that lies in the second, after whole blocks. -/
theorem blockWords_append_right (whole : p.length % 64 = 0) (b : Nat) :
    blockWords (p ++ p') (p.length / 64 + b) = blockWords p' b := by
  have byte (k : Fin 16) (i : Nat) :
      (p ++ p').getD (64 * (p.length / 64 + b) + 4 * k.val + i) 0x00#8 = p'.getD (64 * b + 4 * k.val + i) 0x00#8 := by
    have index : 64 * (p.length / 64 + b) + 4 * k.val + i - p.length = 64 * b + 4 * k.val + i := by omega
    rw [List.getD_append_right _ _ _ _ (by omega), index]
  simp only [blockWords, byte]

/-- Whole blocks and what follows them. -/
theorem blocks_append (whole : p.length % 64 = 0) : blocks (p ++ p') = blocks p ++ blocks p' := by
  have count : (p ++ p').length / 64 = p.length / 64 + p'.length / 64 := by
    rw [List.length_append]
    omega
  rw [blocks, count, List.range_add, List.map_append, List.map_map]
  exact congrArg₂ (· ++ ·)
    (List.map_congr_left fun _ hb => blockWords_append_left p' (List.mem_range.mp hb))
    (List.map_congr_left fun b _ => blockWords_append_right p' whole b)

end

/-! ## The full part and the tail of a message -/

/-- The bytes of a message in its full blocks (R256). -/
def fullPart (msg : List Byte) : List Byte := msg.take (64 * (msg.length / 64))

/-- The bytes of a message after its full blocks. -/
def tailPart (msg : List Byte) : List Byte := msg.drop (64 * (msg.length / 64))

section
variable (msg : List Byte)

theorem fullPart_append_tailPart : fullPart msg ++ tailPart msg = msg := List.take_append_drop _ _

theorem fullPart_length_mod : (fullPart msg).length % 64 = 0 := by
  rw [fullPart, List.length_take]
  omega

theorem tailPart_length : (tailPart msg).length = msg.length % 64 := by
  rw [tailPart, List.length_drop]
  omega

theorem blocks_fullPart : blocks (fullPart msg) = blocks msg := by
  have noBlocks : blocks (tailPart msg) = [] := by
    rw [← List.length_eq_zero_iff, blocks_length, tailPart_length]
    omega
  have split := blocks_append (tailPart msg) (fullPart_length_mod msg)
  rw [fullPart_append_tailPart, noBlocks, List.append_nil] at split
  exact split.symm

/-- The padding of a message is that of its tail, with the bit length of the whole message (R249, R251). -/
theorem padMessage_eq : padMessage msg = fullPart msg ++ padWith (tailPart msg) (BitVec.ofNat 64 msg.length) := by
  have zeros : padZeros (tailPart msg).length = padZeros msg.length := by rw [tailPart_length, padZeros_mod]
  simp only [padMessage, padWith, zeros, ← List.append_assoc, fullPart_append_tailPart]

/-- R250: the blocks of a message, then those of its padded tail. -/
theorem md5Message_eq : md5Message msg =
    compressAll ((blocks msg).foldl compress md5Initial) (padWith (tailPart msg) (BitVec.ofNat 64 msg.length)) := by
  rw [md5Message, padMessage_eq, compressAll_eq_foldl, blocks_append _ (fullPart_length_mod msg), List.foldl_append,
    blocks_fullPart, ← compressAll_eq_foldl]

end

/-! ## Runs that consume events -/

/-- With any events after them, the events `es` take the block from the state `f` to the state `g`. -/
def Consumes (es : List Event) (f g : List Event → State) : Prop :=
  ∀ rest, core.run es.length (f (es ++ rest)) = .next (g rest)

theorem Consumes.append {es es' : List Event} {f g k : List Event → State} (h : Consumes es f g)
    (h' : Consumes es' g k) : Consumes (es ++ es') f k := by
  intro rest
  rw [List.length_append, List.append_assoc]
  exact (run_add (h _) _).trans (h' rest)

/-- The idle block `s` with its MD5 state as given and the events `es` left to take. -/
def md5State (s : State) (m : Vector Word 16) (h : Vector Word 4) (cnt : BitVec 64) (dvalid : Bool)
    (es : List Event) : State :=
  { completed s with m := m, h := h, cnt := cnt, dvalid := dvalid, reply := .ack, inputs := es }

/-- The words of `w` at the indices `ks` put in the place of those of `m`. -/
def setWords (w : Vector Word 16) (ks : List (Fin 16)) (m : Vector Word 16) : Vector Word 16 :=
  ks.foldl (fun m (k : Fin 16) => m.set k w[k]) m

theorem setWords_getElem (w : Vector Word 16) (ks : List (Fin 16)) (m : Vector Word 16) (k : Fin 16) :
    (setWords w ks m)[k] = if k ∈ ks then w[k] else m[k] := by
  induction ks generalizing m with
  | nil => rfl
  | cons i ks ih =>
    have cons : setWords w (i :: ks) m = setWords w ks (m.set i w[i]) := rfl
    rw [cons, ih]
    by_cases hi : k = i
    · subst hi
      simp
    · rw [getElem_set_of_ne m w[i] hi]
      simp [hi]

theorem setWords_finRange (w m : Vector Word 16) : setWords w (List.finRange 16) m = w :=
  Vector.ext fun k hk => (setWords_getElem w _ m ⟨k, hk⟩).trans (if_pos (List.mem_finRange _))

section
variable (s : State) (m : Vector Word 16) (h : Vector Word 4) (cnt : BitVec 64) (dvalid : Bool)

/-- R48: one word of the message block. -/
theorem consumes_wr_m (k : Fin 16) (v : Word) :
    Consumes [wr (.m k) v] (md5State s m h cnt dvalid) (md5State s (m.set k v) h cnt dvalid) := fun es =>
  (run_one _).trans <| (step_cons (e := wr (.m k) v) (rest := es) rfl).trans <|
    memWrite_offset (.m k) v (md5State s m h cnt dvalid es)

theorem consumes_wr_words (w : Vector Word 16) (ks : List (Fin 16)) :
    Consumes (ks.map fun k => wr (.m k) w[k]) (md5State s m h cnt dvalid)
      (md5State s (setWords w ks m) h cnt dvalid) := by
  induction ks generalizing m with
  | nil => exact fun _ => rfl
  | cons k ks ih => exact (consumes_wr_m s m h cnt dvalid k w[k]).append (ih _)

/-- R256: the sixteen writes load the message block. -/
theorem consumes_wrM (w : Vector Word 16) :
    Consumes (wrM w) (md5State s m h cnt dvalid) (md5State s w h cnt dvalid) := by
  have := consumes_wr_words s m h cnt dvalid w (List.finRange 16)
  rwa [setWords_finRange] at this

theorem consumes_md5init (hb : s.busy = false) :
    Consumes (x .md5init) (fun es => { s with inputs := es }) (md5State s s.m md5Initial 0#64 false) := fun es =>
  issuedCommandRunsAtCompletion _ .md5init es hb rfl nofun rfl

theorem consumes_md5block :
    Consumes (x .md5block) (md5State s m h cnt dvalid) (md5State s m (compress h m) (cnt + 64#64) false) := fun es =>
  issuedCommandRunsAtCompletion (md5State s m h cnt dvalid _) .md5block es rfl rfl nofun rfl

theorem consumes_md5final (l : BitVec 6) :
    Consumes (x (.md5final l)) (md5State s m h cnt dvalid)
      (md5State s m (compressAll h (padWith (tailBytes m l) (cnt + l.setWidth 64))) (cnt + l.setWidth 64) true) :=
  fun es => issuedCommandRunsAtCompletion (md5State s m h cnt dvalid _) (.md5final l) es rfl rfl nofun rfl

/-- The full blocks, each loaded and compressed; the last one stays in M. -/
theorem consumes_blocks (ws : List (Vector Word 16)) : ∃ m',
    Consumes (ws.flatMap fun w => wrM w ++ x .md5block) (md5State s m h cnt false)
      (md5State s m' (ws.foldl compress h) (cnt + BitVec.ofNat 64 (64 * ws.length)) false) := by
  induction ws generalizing m h cnt with
  | nil =>
    refine ⟨m, fun _ => ?_⟩
    rw [List.length_nil, Nat.mul_zero, BitVec.add_zero]
    rfl
  | cons w ws ih =>
    obtain ⟨m', others⟩ := ih w (compress h w) (cnt + 64#64)
    refine ⟨m', ?_⟩
    rw [List.length_cons, Nat.mul_succ, Nat.add_comm _ 64, BitVec.ofNat_add, ← BitVec.add_assoc]
    exact ((consumes_wrM s m h cnt false w).append (consumes_md5block s w h cnt false)).append others

end

/-! ## The host sequence -/

/-- R256: the words that hold the tail give its bytes to MD5FINAL. -/
theorem tailBytes_of_holdsTail {msg : List Byte} {tail : Vector Word 16} (ht : holdsTail msg tail) :
    tailBytes tail (BitVec.ofNat 6 (msg.length % 64)) = tailPart msg := by
  have field : (BitVec.ofNat 6 (msg.length % 64)).toNat = msg.length % 64 := Nat.mod_mod _ _
  refine tailBytes_eq ((tailPart_length msg).trans field.symm) fun k hk => ?_
  rw [tailPart, List.getElem?_drop]
  exact ht k (field ▸ hk)

/-- CNT after the full blocks and the tail. -/
theorem count_of_blocks (msg : List Byte) :
    0#64 + BitVec.ofNat 64 (64 * (blocks msg).length) + (BitVec.ofNat 6 (msg.length % 64)).setWidth 64 =
      BitVec.ofNat 64 msg.length := by
  rw [BitVec.zero_add, BitVec.setWidth_ofNat_of_le_of_lt (by decide) (Nat.mod_lt _ (by decide)), ← BitVec.ofNat_add,
    blocks_length, Nat.div_add_mod]

/-- R256: the host sequence leaves the accumulators of the whole message. -/
theorem consumes_md5Script {s : State} {msg : List Byte} {tail : Vector Word 16} (hb : s.busy = false)
    (ht : holdsTail msg tail) :
    Consumes (md5Script msg tail) (fun es => { s with inputs := es })
      (md5State s tail (md5Message msg) (BitVec.ofNat 64 msg.length) true) := by
  obtain ⟨m, full⟩ := consumes_blocks s s.m md5Initial 0#64 (blocks msg)
  have load := consumes_wrM s m ((blocks msg).foldl compress md5Initial)
    (0#64 + BitVec.ofNat 64 (64 * (blocks msg).length)) false tail
  have last := consumes_md5final s tail ((blocks msg).foldl compress md5Initial)
    (0#64 + BitVec.ofNat 64 (64 * (blocks msg).length)) false (BitVec.ofNat 6 (msg.length % 64))
  rw [count_of_blocks, tailBytes_of_holdsTail ht, ← md5Message_eq] at last
  have script : md5Script msg tail = x .md5init ++ ((blocks msg).flatMap fun w => wrM w ++ x .md5block) ++
      wrM tail ++ x (.md5final (BitVec.ofNat 6 (msg.length % 64))) := by
    rw [blocks, List.flatMap_map, md5Script]
  rw [script]
  exact (((consumes_md5init s hb).append full).append load).append last

/-- Settles O53: the events are those of the sequence, and none is left. -/
theorem md5OfAMessageThroughTheInterface : Obligations.Md5OfAMessageThroughTheInterface := by
  intro s msg tail hb ht hin
  have run := consumes_md5Script hb ht []
  rw [List.append_nil, ← hin] at run
  exact ⟨_, run, rfl, rfl, rfl, rfl, rfl⟩

end Sys2Proof.Proofs
end

section
/-! PROOFS, safe runs. A step of a safe state goes on, because a legal access is performed and the core's turn of a
sound block completes; and it leaves a safe state, because it takes events off the script and adds none. -/

namespace Sys2Proof.Proofs

open Sys2Proof Sys2Proof.Machine Sys2Proof.Safety

/-! ## Progress -/

theorem hostAccess_of_legalAccess {off : BitVec 12} {a : HostAccess} (h : legalAccess off a = true) (s : State) :
    ∃ t, hostAccess off a s = .next t := by
  cases a with
  | read n => exact ⟨_, memRead_legal h s⟩
  | write n v => exact ⟨_, memWrite_legal h v s⟩

/-- R83: the access is performed at an offset of the window, or is not the block's. -/
theorem busAccess_of_legalEvent {addr : Nat} {a : HostAccess} (h : legalEvent (.bus addr a) = true) (s : State) :
    ∃ t, busAccess addr a s = .next t := by
  unfold busAccess
  cases hw : windowOffset? addr with
  | none => exact ⟨s, rfl⟩
  | some off => exact hostAccess_of_legalAccess (by simpa [legalEvent, hw] using h) s

section
variable {s t : State}

theorem coreTurn_of_sound (hs : Sound s) : ∃ t, coreTurn s = .next t := by
  cases hb : s.busy with
  | false => exact ⟨s, coreTurn_idle hb⟩
  | true =>
    obtain ⟨t, ht, -⟩ := coreStep_of_sound hs hb
    exact ⟨t, (if_pos hb).trans ht⟩

theorem takeEvent_of_sound {e : Event} (hs : Sound s) (he : legalEvent e = true) :
    ∃ t, takeEvent e s = .next t := by
  cases e with
  | host off a => exact hostAccess_of_legalAccess he s
  | bus addr a => exact busAccess_of_legalEvent he s
  | complete => exact coreTurn_of_sound hs
  | reset => exact ⟨_, rfl⟩

/-- R289: a safe state has a next state. -/
theorem step_of_safe (h : Safe s) : ∃ t, step s = .next t := by
  obtain ⟨hs, legal⟩ := h
  cases hin : s.inputs with
  | nil => exact step_nil hin ▸ coreTurn_of_sound hs
  | cons e rest =>
    exact step_cons hin ▸ takeEvent_of_sound (sound_frame hs ..) (legal e (by simp [hin]))

/-! ## The script -/

theorem exec_inputs {i : Instr} (h : exec i s = .next t) : t.inputs = s.inputs := by
  by_cases hi : i = .sboxgen
  · subst hi
    exact next_inj h ▸ rfl
  · obtain ⟨_, _, _, _, _, rfl⟩ | ⟨_, rfl⟩ := exec_next hi h <;> rfl

theorem coreTurn_inputs (h : coreTurn s = .next t) : t.inputs = s.inputs := by
  obtain ⟨-, rfl⟩ | ⟨-, hstep⟩ := coreTurn_next h
  · rfl
  · obtain ⟨-, -, rfl⟩ | ⟨_, _, -, -, he⟩ := coreStep_next hstep
    · exact resetGenComplete_inputs s
    · exact exec_inputs he

theorem busAccess_inputs {addr : Nat} {a : HostAccess} (h : busAccess addr a s = .next t) :
    t.inputs = s.inputs := by
  unfold busAccess at h
  split at h
  · exact hostAccess_inputs h
  · exact next_inj h ▸ rfl

theorem takeEvent_inputs {e : Event} (h : takeEvent e s = .next t) : t.inputs = s.inputs := by
  cases e with
  | host off a => exact hostAccess_inputs h
  | bus addr a => exact busAccess_inputs h
  | complete => exact coreTurn_inputs h
  | reset => exact next_inj h ▸ rfl

/-- A step takes the oldest event, if there is one, off the script. -/
theorem step_inputs (h : step s = .next t) : t.inputs = s.inputs.tail := by
  cases hin : s.inputs with
  | nil => exact (coreTurn_inputs ((step_nil hin).symm.trans h)).trans hin
  | cons e rest => exact takeEvent_inputs ((step_cons hin).symm.trans h)

/-! ## Runs -/

theorem safe_step (h : Safe s) (hstep : step s = .next t) : Safe t := by
  obtain ⟨hs, legal⟩ := h
  refine ⟨stepKeepsTheInvariant s t hs hstep, fun e he => legal e ?_⟩
  rw [step_inputs hstep] at he
  exact List.mem_of_mem_tail he

end

/-- Settles O57, by induction on the number of steps: each goes on, to a safe state. -/
theorem safeRunsNeverStop : Obligations.SafeRunsNeverStop := by
  intro s k
  induction k generalizing s with
  | zero => exact fun h => ⟨s, run_zero s, h⟩
  | succ k ih =>
    intro h
    obtain ⟨u, hstep⟩ := step_of_safe h
    exact run_next hstep k ▸ ih u (safe_step h hstep)

end Sys2Proof.Proofs
end

section
/-! PROOFS, the interrupt output. It is a function of four flags, each of which a host reads in its own bit of STATUS
or CTRL (R33, R35, R286). -/

namespace Sys2Proof.Proofs

open Sys2Proof Sys2Proof.Machine

section
variable (s : State)

theorem statusWord_getLsbD_one : (statusWord s).getLsbD 1 = s.done := by
  simp [statusWord, flagAt]

theorem statusWord_getLsbD_two : (statusWord s).getLsbD 2 = s.err := by
  simp [statusWord, flagAt]

theorem ctrlWord_getLsbD_zero : (ctrlWord s).getLsbD 0 = s.doneIe := by
  simp [ctrlWord, flagAt]

theorem ctrlWord_getLsbD_one : (ctrlWord s).getLsbD 1 = s.errIe := by
  simp [ctrlWord, flagAt]

theorem irq_eq_true_iff :
    irq s = true ↔ (s.done = true ∧ s.doneIe = true) ∨ (s.err = true ∧ s.errIe = true) := by
  simp [irq]

theorem irqAt_eq_true_iff (route : IrqRoute) :
    irqAt route s = true ↔ route = Config.pIrq ∧ irq s = true := by
  simp [irqAt]

end

/-- Neither enable asserts the output on its own. -/
theorem irq_of_flags_clear {s : State} (hdone : s.done = false) (herr : s.err = false) : irq s = false := by
  simp [irq, hdone, herr]

/-- Settles O17: the flags are the bits read, and the clear, the acceptance and the reset each leave both DONE and
ERR at 0. -/
theorem interruptFollowsDoneAndErr : Obligations.InterruptFollowsDoneAndErr := by
  intro s
  refine ⟨?bits, irqAt_eq_true_iff s, ?clear, fun c i he => ?accept, irq_of_flags_clear rfl rfl⟩
  case bits =>
    rw [statusWord_getLsbD_one, statusWord_getLsbD_two, ctrlWord_getLsbD_zero, ctrlWord_getLsbD_one]
    exact irq_eq_true_iff s
  case clear => exact irq_of_flags_clear (by simp) (by simp)
  case accept => exact irq_of_flags_clear (accept_done c i s) ((accept_err c i s).trans he)

end Sys2Proof.Proofs
end

section
/-! PROOFS, the reset values. The two words that pack flags are read off their sums of fields; an array is 0 at every
index because each is a repeated 0 (R311, R312). -/

namespace Sys2Proof.Proofs

open Sys2Proof Sys2Proof.Machine

theorem ctrlWord_reset : ctrlWord State.reset = 0#32 :=
  BitVec.eq_of_toNat_eq (ctrlWord_toNat State.reset)

/-- BUSY alone is 1: the table generation is in flight. -/
theorem statusWord_reset : statusWord State.reset = 0x00000001#32 :=
  BitVec.eq_of_toNat_eq (statusWord_toNat State.reset)

theorem regValue_reset_key (j : Fin 4) : regValue State.reset (.key j) = 0#32 :=
  Vector.getElem_replicate j.isLt

theorem regValue_reset_st (j : Fin 4) : regValue State.reset (.st j) = 0#32 :=
  Vector.getElem_replicate j.isLt

theorem regValue_reset_m (k : Fin 16) : regValue State.reset (.m k) = 0#32 :=
  Vector.getElem_replicate k.isLt

theorem regValue_reset_rk (i : Fin 44) : regValue State.reset (.rk i) = 0#32 :=
  Vector.getElem_replicate i.isLt

/-- H holds the constants of the MD5 engine, as after MD5INIT (R49). -/
theorem regValue_reset_h (k : Fin 4) : regValue State.reset (.h k) = md5Initial[k] := rfl

/-- Settles O54: the packed words and the arrays by the lemmas above; every other register is one field of the reset
state. -/
theorem resetValuesAreThoseOfTheRule : Obligations.ResetValuesAreThoseOfTheRule :=
  ⟨ctrlWord_reset, statusWord_reset, rfl, rfl, rfl, rfl, fun j => ⟨regValue_reset_key j, regValue_reset_st j⟩,
    regValue_reset_m, regValue_reset_h 0, regValue_reset_h 1, regValue_reset_h 2, regValue_reset_h 3, rfl, rfl,
    regValue_reset_rk, rfl, rfl, irq_of_flags_clear rfl rfl⟩

end Sys2Proof.Proofs
end

section
/-! PROOFS, the quiet block. With no event left the next step is the core's turn: it completes what is in flight, and
an idle block it leaves as it is (R145). -/

namespace Sys2Proof.Proofs

open Sys2Proof Sys2Proof.Machine Sys2Proof.Safety

/-- A state that the step leaves as it is stays for any number of steps. -/
theorem run_of_step_eq_self {s : State} (h : step s = .next s) (k : Nat) : core.run k s = .next s := by
  induction k with
  | zero => exact run_zero s
  | succ k ih => exact (run_next h k).trans ih

theorem step_quiet_idle {s : State} (hin : s.inputs = []) (hb : s.busy = false) : step s = .next s :=
  (step_nil hin).trans (coreTurn_idle hb)

/-- The step of a sound block with no event left ends with BUSY 0, whether or not something was in flight. -/
theorem step_quiet_of_sound {s : State} (hs : Sound s) (hin : s.inputs = []) :
    ∃ t, step s = .next t ∧ t.busy = false := by
  cases hb : s.busy with
  | false => exact ⟨s, step_quiet_idle hin hb, hb⟩
  | true =>
    obtain ⟨t, ht, hidle⟩ := coreStep_of_sound hs hb
    exact ⟨t, (step_nil hin).trans ((if_pos hb).trans ht), hidle⟩

/-- R36, R39: with BUSY 0 nothing is in flight, no generation either, so the tables are ready. -/
theorem nothingInFlight_of_sound_idle {s : State} (hs : Sound s) (hb : s.busy = false) :
    s.cur = none ∧ s.gen = false ∧ s.tready = true := by
  obtain ⟨hcur, hgen⟩ := hs.idle hb
  exact ⟨hcur, hgen, by rw [hs.tready, hgen, Bool.not_false]⟩

/-- Settles O58: the first step makes the block idle, and the invariant, which it keeps, says the rest; every later
step leaves the block as it is. -/
theorem quietBlockBecomesIdle : Obligations.QuietBlockBecomesIdle := by
  intro s k hs hin
  obtain ⟨t, hstep, hidle⟩ := step_quiet_of_sound hs hin
  have quiet : t.inputs = [] := by rw [step_inputs hstep, hin, List.tail_nil]
  have stays : core.run k t = .next t := run_of_step_eq_self (step_quiet_idle quiet hidle) k
  exact ⟨t, (run_next hstep k).trans stays, hidle,
    nothingInFlight_of_sound_idle (stepKeepsTheInvariant s t hs hstep) hidle⟩

end Sys2Proof.Proofs
end
